-- ==== Sys2Proof/Word.lean ====
section
/-!
DEFINITION. The bit widths of 00_scope.md R5 to R9: u8, u16, u32 and the ten-byte frame.
-/

namespace Sys2Proof

/-- `u8` of 00_scope.md R7: a byte of a frame, and ARG_ID. -/
abbrev Byte := BitVec 8

/-- `u16` of 00_scope.md R7: the CRC accumulator and a device register address. -/
abbrev Half := BitVec 16

/-- `u32` of 00_scope.md R7: a register of the window, a command word, a payload. -/
abbrev Word := BitVec 32

/-- A ten-byte frame (00_scope.md R5 FRAME_LEN), element `i` being byte `i` of 00_scope.md R8. -/
abbrev Frame := Vector Byte 10

/-- The 80-bit number the opcode table writes a frame as: byte 0 in bits 79:72, byte 9 in bits 7:0. -/
abbrev FrameWord := BitVec 80

/-- A byte offset into the register window, 0x00 to 0xFF (20_memory.md R39, R40). -/
abbrev Offset := BitVec 8

/-- `zext_32` of 00_scope.md R9. -/
abbrev zext32 {n : Nat} (v : BitVec n) : Word := v.setWidth 32

/-- `zext_16` of a byte, 00_scope.md R9. -/
abbrev zext16 (v : Byte) : Half := v.setWidth 16

/-- One bit of a register as a bit vector. -/
abbrev bit (b : Bool) : BitVec 1 := BitVec.ofBool b

end Sys2Proof
end

