-- ==== Sys2Proof/Config.lean ====
section
/-!
DEFINITION. The constants of 00_scope.md R5 and the open parameters of 92_eei_decisions.md.
-/

namespace Sys2Proof.Config

/-- CRC_INIT of 00_scope.md R5. -/
def crcInit : Half := 0xFFFF#16

/-- CRC_POLY_REFLECTED of 00_scope.md R5. -/
def crcPolyReflected : Half := 0xA001#16

/-- FC_READ of 00_scope.md R5. -/
def fcRead : Byte := 3#8

/-- FC_WRITE of 00_scope.md R5. -/
def fcWrite : Byte := 6#8

/-- READ_LEN_INDICATOR of 00_scope.md R5, the payload of every read request (30_encoding.md R63). -/
def readLenIndicator : Word := 0x00000002#32

/-- RESPONSE_LEN of 00_scope.md R5, the length RECV asks the transport for (42_transaction.md R91). -/
def responseLen : Nat := 10

/-- WINDOW_BASE: the host address of offset 0x00, the platform's choice (20_memory.md R40). -/
opaque windowBase : Nat

/-- HOST_RETRY_ATTEMPTS: the 3 attempts of 60_exceptions.md R122
(DESIGN CHOICE: the default 92_eei_decisions.md allows a model; log 13). -/
def hostRetryAttempts : Nat := 3

/-- HOST_RETRY_COUNT_INCLUDES_FIRST, open (92_eei_decisions.md). -/
opaque hostRetryCountIncludesFirst : Bool

/-- HOST_RETRY_BACKOFF in tenths of the source's time unit: "1.5 time units" (60_exceptions.md R122);
the unit is open (DESIGN CHOICE: the default of 92_eei_decisions.md; log 13). -/
def hostRetryBackoffTenths : Nat := 15

/-- The length of the source's unnamed time unit, open (92_eei_decisions.md, HOST_RETRY_BACKOFF). -/
opaque hostRetryTimeUnit : Nat

/-- HOST_RETRY_ON_TIMEOUT: yes, by 90_conflicts.md C1. -/
def hostRetryOnTimeout : Bool := true

/-- HOST_RETRY_ON_WRITE, open (90_conflicts.md C2). -/
opaque hostRetryOnWrite : Bool

/-- TRANSPORT_TIMEOUT: the transport's read window, open; the block sees only RX_END TIMEOUT
(60_exceptions.md R123). -/
opaque transportTimeout : Nat

/-- TRANSPORT_BAUD: the serial rate, open; it never reaches the block (60_exceptions.md R110). -/
opaque transportBaud : Nat

end Sys2Proof.Config
end

