-- ==== Sys2Proof/Machine/Crc.lean ====
section
/-!
DEFINITION. The CRC-16/MODBUS function of 40_crc.md section 1.
-/

namespace Sys2Proof.Machine

/-- One of the eight iterations of `crc_step` (40_crc.md R68): the low bit tested is the one before the shift. -/
def crcBit (c : Half) : Half :=
  if c.getLsbD 0 then (c >>> 1) ^^^ Config.crcPolyReflected else c >>> 1

/-- `n` iterations of `crcBit`. -/
def crcBits : Nat → Half → Half
  | 0, c => c
  | n + 1, c => crcBits n (crcBit c)

/-- `crc_step(c, b)` of 40_crc.md R68. -/
def crcStep (c : Half) (b : Byte) : Half :=
  crcBits 8 (c ^^^ zext16 b)

/-- `crc16(s)` of 40_crc.md R69: the step folded over the sequence, first byte first, from 0xFFFF. -/
def crc16 (s : List Byte) : Half :=
  s.foldl crcStep Config.crcInit

end Sys2Proof.Machine
end

