-- ==== Sys2Proof/Machine/Operands.lean ====
section
/-!
DEFINITION. Operand assembly: big-endian byte order (00_scope.md R8, 20_memory.md R43), the request frame
(41_frame_encode.md R76), the decoded value (42_transaction.md R97) and the signed reading (00_scope.md R9).
-/

namespace Sys2Proof.Machine

/-- `be16(v)` of 00_scope.md R8: most significant byte first. -/
def be16 (v : Half) : List Byte :=
  [v.extractLsb' 8 8, v.extractLsb' 0 8]

/-- `be32(v)` of 00_scope.md R8: most significant byte first. -/
def be32 (v : Word) : List Byte :=
  [v.extractLsb' 24 8, v.extractLsb' 16 8, v.extractLsb' 8 8, v.extractLsb' 0 8]

/-- The 16-bit value of two bytes, most significant first (20_memory.md R43). -/
def half2 (hi lo : Byte) : Half := hi ++ lo

/-- The 32-bit value of four bytes, most significant first (20_memory.md R43). -/
def word4 (b3 b2 b1 b0 : Byte) : Word := b3 ++ b2 ++ b1 ++ b0

/-- Bytes 0 to 7 of a frame, the bytes its CRC covers (41_frame_encode.md R77). -/
def frameBody (f : Frame) : List Byte :=
  [f[0], f[1], f[2], f[3], f[4], f[5], f[6], f[7]]

/-- The big-endian value of bytes 8 and 9 of a frame (41_frame_encode.md R83). -/
def frameCrc (f : Frame) : Half := half2 f[8] f[9]

/-- The big-endian value of bytes 2 and 3 of a frame (30_encoding.md R59). -/
def frameAddr (f : Frame) : Half := half2 f[2] f[3]

/-- The big-endian value of bytes 4 to 7 of a frame: `decode_value()` of 42_transaction.md R97. -/
def framePayload (f : Frame) : Word := word4 f[4] f[5] f[6] f[7]

/-- A frame is well-formed when the CRC of bytes 0 to 7 is the value of bytes 8 and 9 (41_frame_encode.md R83). -/
def frameWellFormed (f : Frame) : Bool := crc16 (frameBody f) == frameCrc f

/-- The CRC a request frame with these fields carries (30_encoding.md R59, bytes 8 and 9). -/
def requestCrc (id fc : Byte) (addr : Half) (payload : Word) : Half :=
  crc16 (id :: fc :: (be16 addr ++ be32 payload))

/-- `build_frame(id, fc, addr, payload)` of 41_frame_encode.md R76: the CRC is computed last, over bytes 0 to 7,
and placed high byte first (R77). -/
def buildFrame (id fc : Byte) (addr : Half) (payload : Word) : Frame :=
  let c := requestCrc id fc addr payload
  #v[id, fc, addr.extractLsb' 8 8, addr.extractLsb' 0 8,
    payload.extractLsb' 24 8, payload.extractLsb' 16 8, payload.extractLsb' 8 8, payload.extractLsb' 0 8,
    c.extractLsb' 8 8, c.extractLsb' 0 8]

/-- The ten bytes of a frame word, byte 0 from bits 79:72 (30_encoding.md R59, "byte 0 first"). -/
def frameBytes (f : FrameWord) : Frame :=
  #v[f.extractLsb' 72 8, f.extractLsb' 64 8, f.extractLsb' 56 8, f.extractLsb' 48 8, f.extractLsb' 40 8,
    f.extractLsb' 32 8, f.extractLsb' 24 8, f.extractLsb' 16 8, f.extractLsb' 8 8, f.extractLsb' 0 8]

/-- The bytes of a response frame with the fields of its row, in wire order (30_encoding.md R60). -/
def responseBytes (header payload : Word) (crc : Half) : List Byte :=
  be32 header ++ be32 payload ++ be16 crc

/-- `s32(p)` of 00_scope.md R9. -/
def s32 (p : Word) : Int := p.toInt

/-- `u32(v)` of 00_scope.md R9. -/
def u32 (v : Int) : Word := BitVec.ofInt 32 v

end Sys2Proof.Machine
end

