-- ==== Sys2Proof/Syntax.lean ====
section
/-!
DEFINITION. The instructions (one constructor per row of spec/opcode_table.json) and the encoded forms
the block meets (30_encoding.md R53).
-/

namespace Sys2Proof

/-- The kind RX_END carries: DATA, the transport returned the bytes delivered, or TIMEOUT, it returned its
timeout marker (42_transaction.md R93, 60_exceptions.md R110). -/
inductive RxEndKind where
  | data
  | timeout
  deriving DecidableEq, Repr

/-- The instructions: the seven commands, the three frame patterns and the three transport events of
spec/opcode_table.json, in the table's order. -/
inductive Instr where
  /-- NOP, 40_crc.md R71. -/
  | nop
  /-- CRC_INIT, 40_crc.md R72. -/
  | crcInit
  /-- CRC_UPDATE with its byte operand, 40_crc.md R73. -/
  | crcUpdate (b : Byte)
  /-- ENC_READ, 41_frame_encode.md R79. -/
  | encRead
  /-- ENC_WRITE, 41_frame_encode.md R80. -/
  | encWrite
  /-- SEND, 42_transaction.md R90. -/
  | send
  /-- RECV, 42_transaction.md R91. -/
  | recv
  /-- READ_REQ, the read request frame of 30_encoding.md R59: fields I, A, C of its row. -/
  | readReq (id : Byte) (addr : Half) (crc : Half)
  /-- WRITE_REQ, the write request frame of 30_encoding.md R59: fields I, A, D, C of its row. -/
  | writeReq (id : Byte) (addr : Half) (data : Word) (crc : Half)
  /-- RESPONSE, the response frame of 30_encoding.md R60: fields X, V, C of its row. -/
  | response (header : Word) (payload : Word) (crc : Half)
  /-- RX_BYTE, 42_transaction.md R92. -/
  | rxByte (b : Byte)
  /-- RX_END, 42_transaction.md R93. -/
  | rxEnd (k : RxEndKind)
  /-- XPORT_ERR, 42_transaction.md R94. -/
  | xportErr
  deriving DecidableEq, Repr

/-- An encoded form, tagged by the channel it comes on (30_encoding.md R53): a command word written to CMD,
a request frame, a response frame, or a transport event, which has no encoded word. -/
inductive Encoded where
  | command (w : Word)
  | request (f : FrameWord)
  | response (f : FrameWord)
  | rxByte (b : Byte)
  | rxEnd (k : RxEndKind)
  | xportErr
  deriving DecidableEq, Repr

end Sys2Proof
end

