-- ==== Sys2Proof/Machine/State.lean ====
section
/-!
DEFINITION. The state of the block (10_state.md R13), what the outside world presents to it and takes from it, and
the state after reset (10_state.md R35).
-/

namespace Sys2Proof.Machine

/-- STATE (10_state.md R23): the six states of the transaction; the codes 6 and 7 never occur (log 10). -/
inductive TxnState where
  | idle
  | frameBuilt
  | sent
  | awaitingResponse
  | decoded
  | errored
  deriving DecidableEq, Repr

/-- ERR (10_state.md R24): the outcome code; the codes 5 to 7 never occur (log 10). -/
inductive ErrCode where
  | success
  | communicationError
  | valueError
  | indexError
  | timeout
  deriving DecidableEq, Repr

/-- KIND (10_state.md R25): whether TX holds a read (0) or a write (1) request. -/
inductive ReqKind where
  | read
  | write
  deriving DecidableEq, Repr

/-- What one step of the outside world presents to the block (00_scope.md R11, 60_exceptions.md R110). -/
inductive Input where
  /-- `MemRead(off, width)`: a host read, its width in bytes (20_memory.md R41, R42). -/
  | memRead (off : Offset) (width : Nat)
  /-- `MemWrite(off, width, v)`: a host write; a write of CMD performs a command (10_state.md R31). -/
  | memWrite (off : Offset) (width : Nat) (v : Word)
  /-- A request frame taken as one step: the model's own input for the rows READ_REQ and WRITE_REQ (log 5). -/
  | requestFrame (f : FrameWord)
  /-- A whole response frame taken as one step: the model's own input for the row RESPONSE (log 7). -/
  | responseFrame (f : FrameWord)
  /-- RX_BYTE(b) (42_transaction.md R92). -/
  | rxByte (b : Byte)
  /-- RX_END(kind) (42_transaction.md R93). -/
  | rxEnd (k : RxEndKind)
  /-- XPORT_ERR (42_transaction.md R94). -/
  | xportErr
  /-- The reset input (70_reset_and_hazards.md R127). -/
  | reset
  deriving DecidableEq, Repr

/-- What the block hands to the transport (60_exceptions.md R110). -/
inductive TransportMsg where
  /-- TX_WRITE: the ten bytes of a request frame, byte 0 first (42_transaction.md R90). -/
  | txWrite (f : Frame)
  /-- RX_REQUEST: the length of the response asked for (42_transaction.md R91). -/
  | rxRequest (n : Nat)
  deriving DecidableEq, Repr

/-- Why the machine stops with a fault. -/
inductive Fault where
  /-- BusFault(off): raised by a host access with a width other than 32 bits or at an offset that is not mapped,
  and by nothing else (20_memory.md R42). Safe: the spec asks a model to treat it as a fault. -/
  | busFault (off : Offset)
  deriving DecidableEq, Repr

/-- Why the machine has no meaning for what it was given. -/
inductive Refusal where
  /-- Raised by an arm of exec whose instruction has no meaning yet; no arm answers it. Safe. -/
  | notModelled (mnemonic : String)
  /-- Raised when the model's own request-frame input holds neither a read nor a write request
  (30_encoding.md R61; log 16). Safe. -/
  | notARequestFrame (f : FrameWord)
  deriving DecidableEq, Repr

/-- The state of the block (10_state.md R13), and the three lists that are the model's own (log 1, log 2). -/
structure State where
  /-- ARG_ID, 10_state.md R16. -/
  argId : Byte
  /-- ARG_ADDR, 10_state.md R17. -/
  argAddr : Half
  /-- ARG_DATA, 10_state.md R18. -/
  argData : Word
  /-- CRC, the standalone accumulator, 10_state.md R19. -/
  crc : Half
  /-- TX[0..9], 10_state.md R20. -/
  tx : Frame
  /-- RX[0..9], 10_state.md R21. -/
  rx : Frame
  /-- RXCNT, 0 to 10, 10_state.md R22. -/
  rxCnt : Fin 11
  /-- STATE, 10_state.md R23. -/
  state : TxnState
  /-- ERR, 10_state.md R24. -/
  err : ErrCode
  /-- KIND, 10_state.md R25. -/
  kind : ReqKind
  /-- CRC_OK, 10_state.md R26. -/
  crcOk : Bool
  /-- VALUE_VALID, 10_state.md R27. -/
  valueValid : Bool
  /-- VALUE, 10_state.md R28. -/
  value : Word
  /-- FLAGS.CMD_ERR, 10_state.md R30. -/
  cmdErr : Bool
  /-- FLAGS.RX_OVERRUN, 10_state.md R30. -/
  rxOverrun : Bool
  /-- FLAGS.STRAY, 10_state.md R30. -/
  stray : Bool
  /-- The model's own: the steps of the host and the transport still to come, in their total order
  (20_memory.md R45, 60_exceptions.md R114; log 1). -/
  inputs : List Input
  /-- The model's own: what the block has emitted, oldest first (60_exceptions.md R110; log 2). -/
  toTransport : List TransportMsg
  /-- The model's own: the values host reads have returned, oldest first (20_memory.md R41; log 2). -/
  toHost : List Word
  deriving DecidableEq, Repr

/-- Ten bytes 0x00. -/
def zeroFrame : Frame := #v[0, 0, 0, 0, 0, 0, 0, 0, 0, 0]

/-- The state after reset (10_state.md R35); the model's own lists are empty (DESIGN CHOICE, log 11). -/
def State.reset : State where
  argId := 0#8
  argAddr := 0#16
  argData := 0#32
  crc := 0xFFFF#16
  tx := zeroFrame
  rx := zeroFrame
  rxCnt := 0
  state := .idle
  err := .success
  kind := .read
  crcOk := false
  valueValid := false
  value := 0#32
  cmdErr := false
  rxOverrun := false
  stray := false
  inputs := []
  toTransport := []
  toHost := []

end Sys2Proof.Machine
end

