-- ==== Sys2Proof/Machine/Flags.lean ====
section
/-!
DEFINITION. The status fields as software sees them (10_state.md R23 to R30), the sticky flags, and the outcome of a
read attempt (42_transaction.md R95, R96, R98).
-/

namespace Sys2Proof.Machine

/-- The number of a transaction state (10_state.md R23). -/
def TxnState.code : TxnState → BitVec 3
  | .idle => 0#3
  | .frameBuilt => 1#3
  | .sent => 2#3
  | .awaitingResponse => 3#3
  | .decoded => 4#3
  | .errored => 5#3

/-- The number of an outcome code (10_state.md R24). -/
def ErrCode.code : ErrCode → BitVec 3
  | .success => 0#3
  | .communicationError => 1#3
  | .valueError => 2#3
  | .indexError => 3#3
  | .timeout => 4#3

/-- The KIND bit (10_state.md R25). -/
def ReqKind.code : ReqKind → BitVec 1
  | .read => 0#1
  | .write => 1#1

/-- STATUS (10_state.md R29), from bit 31 down: reserved, KIND, VALUE_VALID, CRC_OK, RXCNT, reserved, ERR,
reserved, STATE. -/
def statusWord (s : State) : Word :=
  0#17 ++ s.kind.code ++ bit s.valueValid ++ bit s.crcOk ++ BitVec.ofNat 4 s.rxCnt.val
    ++ 0#1 ++ s.err.code ++ 0#1 ++ s.state.code

/-- FLAGS (10_state.md R30), from bit 31 down: reserved, STRAY, RX_OVERRUN, CMD_ERR. -/
def flagsWord (s : State) : Word :=
  0#29 ++ bit s.stray ++ bit s.rxOverrun ++ bit s.cmdErr

/-- `raise CmdError` (60_exceptions.md R111): sets CMD_ERR and nothing else. -/
def raiseCmdError (s : State) : State := { s with cmdErr := true }

/-- A response byte beyond the tenth (42_transaction.md R102): sets RX_OVERRUN and nothing else. -/
def raiseOverrun (s : State) : State := { s with rxOverrun := true }

/-- A transport event in a state that takes none (42_transaction.md R101): sets STRAY and nothing else. -/
def raiseStray (s : State) : State := { s with stray := true }

/-- `FLAGS <- FLAGS & ~v[2:0]` (10_state.md R30). -/
def clearFlags (v : Word) (s : State) : State :=
  { s with
    cmdErr := s.cmdErr && !v.getLsbD 0
    rxOverrun := s.rxOverrun && !v.getLsbD 1
    stray := s.stray && !v.getLsbD 2 }

/-- `classify_read(kind, n)` of 42_transaction.md R95, the timeout test first. -/
def classifyRead (k : RxEndKind) (n : Nat) : ErrCode :=
  if k = .timeout ∨ n = 0 then .timeout
  else if n < 10 then .indexError
  else .success

/-- `classify_write(kind, n)` of 42_transaction.md R96. -/
def classifyWrite (k : RxEndKind) (n : Nat) : ErrCode :=
  if k = .timeout ∨ n = 0 then .timeout else .success

/-- The classification KIND selects (42_transaction.md R93). -/
def classify (q : ReqKind) (k : RxEndKind) (n : Nat) : ErrCode :=
  match q with
  | .read => classifyRead k n
  | .write => classifyWrite k n

/-- `crc_match()` of 42_transaction.md R98. -/
def crcMatch (rxCnt : Nat) (rx : Frame) : Bool :=
  if rxCnt = 10 then frameWellFormed rx else false

end Sys2Proof.Machine
end

