-- ==== Sys2Proof/Machine/Ops.lean ====
section
/-!
DEFINITION. The named operations on the state that the meanings share. The block takes no exception and returns from
none (60_exceptions.md R109, R115): what it records instead is raised by the three operations of Flags.lean.
-/

namespace Sys2Proof.Machine

/-- The states in which a transaction has handed its frame over and not ended: Sent and AwaitingResponse
(41_frame_encode.md R82). -/
def TxnState.inFlight : TxnState → Bool
  | .sent => true
  | .awaitingResponse => true
  | .idle => false
  | .frameBuilt => false
  | .decoded => false
  | .errored => false

/-- `enc_common()` of 41_frame_encode.md R81. -/
def encCommon (s : State) : State :=
  { s with
    rx := zeroFrame
    rxCnt := 0
    crcOk := false
    err := .success
    value := 0#32
    valueValid := false
    state := .frameBuilt }

/-- The function code of a request (30_encoding.md R61). -/
def ReqKind.functionCode : ReqKind → Byte
  | .read => Config.fcRead
  | .write => Config.fcWrite

/-- The payload of a request: the length indicator for a read, ARG_DATA for a write (41_frame_encode.md R76). -/
def requestPayload (q : ReqKind) (s : State) : Word :=
  match q with
  | .read => Config.readLenIndicator
  | .write => s.argData

/-- Building a request frame (41_frame_encode.md R79, R80): a CmdError while a transaction is in flight (R82). -/
def buildRequest (q : ReqKind) (s : State) : State :=
  if s.state.inFlight then raiseCmdError s
  else
    encCommon
      { s with
        tx := buildFrame s.argId q.functionCode s.argAddr (requestPayload q s)
        kind := q }

/-- `emit` of 00_scope.md R10. -/
def emit (m : TransportMsg) (s : State) : State :=
  { s with toTransport := s.toTransport ++ [m] }

/-- SEND (42_transaction.md R90). -/
def sendFrame (s : State) : State :=
  if s.state = .frameBuilt then { emit (.txWrite s.tx) s with state := .sent }
  else raiseCmdError s

/-- RECV (42_transaction.md R91). -/
def openRead (s : State) : State :=
  if s.state = .sent then
    { emit (.rxRequest Config.responseLen) s with
      rx := zeroFrame
      rxCnt := 0
      crcOk := false
      state := .awaitingResponse }
  else raiseCmdError s

/-- RX_BYTE(b) (42_transaction.md R92). -/
def receiveByte (s : State) (b : Byte) : State :=
  if s.state = .awaitingResponse then
    if h : s.rxCnt.val < 10 then
      { s with
        rx := s.rx.set s.rxCnt.val b
        rxCnt := ⟨s.rxCnt.val + 1, by omega⟩ }
    else raiseOverrun s
  else raiseStray s

/-- Entry to Decoded (42_transaction.md R93, R99): a read decodes a value, a write has none. -/
def enterDecoded (s : State) : State :=
  match s.kind with
  | .read => { s with state := .decoded, err := .success, value := framePayload s.rx, valueValid := true }
  | .write => { s with state := .decoded, err := .success }

/-- Entry to Errored with an outcome code and no value (42_transaction.md R93, R94, R100). -/
def enterErrored (e : ErrCode) (s : State) : State :=
  { s with state := .errored, err := e, value := 0#32, valueValid := false }

/-- The end of a transaction with an outcome code: Decoded if it is Success, Errored if not (42_transaction.md R93). -/
def settleOutcome (e : ErrCode) (s : State) : State :=
  if e = .success then enterDecoded s else enterErrored e s

/-- RX_END(kind) (42_transaction.md R93). -/
def endRead (k : RxEndKind) (s : State) : State :=
  if s.state = .awaitingResponse then
    settleOutcome (classify s.kind k s.rxCnt.val) { s with crcOk := crcMatch s.rxCnt.val s.rx }
  else raiseStray s

/-- XPORT_ERR (42_transaction.md R94). -/
def transportException (s : State) : State :=
  if s.state.inFlight then enterErrored .communicationError s else raiseStray s

/-- Reset in any state (70_reset_and_hazards.md R127): every piece of the block's state takes its reset value; what
the outside world has still to present, and what it has been given, is not the block's (log 11). -/
def assertReset (s : State) : State :=
  { State.reset with inputs := s.inputs, toTransport := s.toTransport, toHost := s.toHost }

end Sys2Proof.Machine
end

