-- ==== Sys2Proof/Machine/CrcCommands.lean ====
section
/-!
DEFINITION. The meanings of NOP and of the standalone CRC commands (40_crc.md section 2).
-/

namespace Sys2Proof.Machine

/-- NOP (40_crc.md R71). -/
def execNop (s : State) : Host.Outcome State Fault Refusal :=
  .next s

/-- CRC_INIT (40_crc.md R72). -/
def execCrcInit (s : State) : Host.Outcome State Fault Refusal :=
  .next { s with crc := Config.crcInit }

/-- CRC_UPDATE (40_crc.md R73). -/
def execCrcUpdate (b : Byte) (s : State) : Host.Outcome State Fault Refusal :=
  .next { s with crc := crcStep s.crc b }

end Sys2Proof.Machine
end

