-- ==== Sys2Proof/Machine/Window.lean ====
section
/-!
DEFINITION. The register window: its map (10_state.md R32), host reads and writes (20_memory.md R41, R42, R46).
-/

namespace Sys2Proof.Machine

/-- The registers of the window (10_state.md R32). -/
inductive Reg where
  | cmd
  | status
  | flags
  | argId
  | argAddr
  | argData
  | crc
  | value
  | tx (i : Fin 10)
  | rx (i : Fin 10)
  deriving DecidableEq, Repr

/-- The offset of a register (10_state.md R32). -/
def Reg.offset : Reg → Offset
  | .cmd => 0x00#8
  | .status => 0x04#8
  | .flags => 0x08#8
  | .argId => 0x0C#8
  | .argAddr => 0x10#8
  | .argData => 0x14#8
  | .crc => 0x18#8
  | .value => 0x1C#8
  | .tx i => BitVec.ofNat 8 (0x40 + 4 * i.val)
  | .rx i => BitVec.ofNat 8 (0x80 + 4 * i.val)

/-- The register whose index in the window is `n`, its offset being `4 * n` (10_state.md R32). -/
def regOfIndex (n : Nat) : Option Reg :=
  if n = 0 then some .cmd
  else if n = 1 then some .status
  else if n = 2 then some .flags
  else if n = 3 then some .argId
  else if n = 4 then some .argAddr
  else if n = 5 then some .argData
  else if n = 6 then some .crc
  else if n = 7 then some .value
  else if h : 16 ≤ n ∧ n < 26 then some (.tx ⟨n - 16, by omega⟩)
  else if h : 32 ≤ n ∧ n < 42 then some (.rx ⟨n - 32, by omega⟩)
  else none

/-- The register an access reaches: only a 32-bit access at a mapped multiple of 4 reaches one
(20_memory.md R41, R42). -/
def accessed (off : Offset) (width : Nat) : Option Reg :=
  if width = 4 ∧ off.toNat % 4 = 0 then regOfIndex (off.toNat / 4) else none

/-- The value a host read of a register returns (10_state.md R16 to R21, R28 to R31). -/
def readReg (r : Reg) (s : State) : Word :=
  match r with
  | .cmd => 0#32
  | .status => statusWord s
  | .flags => flagsWord s
  | .argId => zext32 s.argId
  | .argAddr => zext32 s.argAddr
  | .argData => s.argData
  | .crc => zext32 s.crc
  | .value => s.value
  | .tx i => zext32 s.tx[i]
  | .rx i => zext32 s.rx[i]

/-- A host write of a register other than CMD: the argument registers store it, FLAGS clears the bits written with 1,
and a read-only register ignores it (10_state.md R16 to R18, R30, R33, R37). CMD itself holds no state (R31): a write
of it performs a command and never comes here. -/
def writeReg (r : Reg) (v : Word) (s : State) : State :=
  match r with
  | .cmd => s
  | .status => s
  | .flags => clearFlags v s
  | .argId => { s with argId := v.setWidth 8 }
  | .argAddr => { s with argAddr := v.setWidth 16 }
  | .argData => { s with argData := v }
  | .crc => s
  | .value => s
  | .tx _ => s
  | .rx _ => s

/-- The host receives the value a read returned (20_memory.md R41). -/
def returnToHost (v : Word) (s : State) : State :=
  { s with toHost := s.toHost ++ [v] }

/-- `MemRead(off, width)` (20_memory.md R41, R42). -/
def hostRead (off : Offset) (width : Nat) (s : State) : Host.Outcome State Fault Refusal :=
  match accessed off width with
  | some r => .next (returnToHost (readReg r s) s)
  | none => .fault (.busFault off)

/-- `MemWrite(off, width, v)` of a register other than CMD (20_memory.md R41, R42). -/
def hostWrite (off : Offset) (width : Nat) (v : Word) (s : State) : Host.Outcome State Fault Refusal :=
  match accessed off width with
  | some r => .next (writeReg r v s)
  | none => .fault (.busFault off)

/-- The offset of a host address in the window, if the address is in the window at WINDOW_BASE (20_memory.md R40;
log 9). -/
def windowOffset (addr : Nat) : Option Offset :=
  if Config.windowBase ≤ addr ∧ addr < Config.windowBase + 256 then
    some (BitVec.ofNat 8 (addr - Config.windowBase))
  else none

end Sys2Proof.Machine
end

