-- ==== Sys2Proof/Machine/FrameCommands.lean ====
section
/-!
DEFINITION. The meanings of the frame-building commands and of the two request frame patterns
(41_frame_encode.md section 2, 30_encoding.md R59).
-/

namespace Sys2Proof.Machine

/-- ENC_READ (41_frame_encode.md R79). -/
def execEncRead (s : State) : Host.Outcome State Fault Refusal :=
  .next (buildRequest .read s)

/-- ENC_WRITE (41_frame_encode.md R80). -/
def execEncWrite (s : State) : Host.Outcome State Fault Refusal :=
  .next (buildRequest .write s)

/-- READ_REQ: the host steps that put this frame in TX, `WR ARG_ID; WR ARG_ADDR; ENC_READ` in one step
(DESIGN CHOICE, log 5). The block computes the CRC of the frame it builds and never reads one (41_frame_encode.md R77;
log 6). -/
def execReadReq (id : Byte) (addr : Half) (_crc : Half) (s : State) : Host.Outcome State Fault Refusal :=
  .next (buildRequest .read (writeReg .argAddr (zext32 addr) (writeReg .argId (zext32 id) s)))

/-- WRITE_REQ: the host steps that put this frame in TX, `WR ARG_ID; WR ARG_ADDR; WR ARG_DATA; ENC_WRITE` in one step
(DESIGN CHOICE, log 5). The block computes the CRC of the frame it builds and never reads one (41_frame_encode.md R77;
log 6). -/
def execWriteReq (id : Byte) (addr : Half) (data : Word) (_crc : Half) (s : State) :
    Host.Outcome State Fault Refusal :=
  .next (buildRequest .write
    (writeReg .argData data (writeReg .argAddr (zext32 addr) (writeReg .argId (zext32 id) s))))

end Sys2Proof.Machine
end

