-- ==== Sys2Proof/Machine/Transaction.lean ====
section
/-!
DEFINITION. The meanings of SEND and RECV, of the transport events and of the response frame pattern
(42_transaction.md sections 2 and 3, 30_encoding.md R60).
-/

namespace Sys2Proof.Machine

/-- SEND (42_transaction.md R90). -/
def execSend (s : State) : Host.Outcome State Fault Refusal :=
  .next (sendFrame s)

/-- RECV (42_transaction.md R91). -/
def execRecv (s : State) : Host.Outcome State Fault Refusal :=
  .next (openRead s)

/-- RX_BYTE (42_transaction.md R92). -/
def execRxByte (b : Byte) (s : State) : Host.Outcome State Fault Refusal :=
  .next (receiveByte s b)

/-- RX_END (42_transaction.md R93). -/
def execRxEnd (k : RxEndKind) (s : State) : Host.Outcome State Fault Refusal :=
  .next (endRead k s)

/-- XPORT_ERR (42_transaction.md R94). -/
def execXportErr (s : State) : Host.Outcome State Fault Refusal :=
  .next (transportException s)

/-- RESPONSE: the transport events that deliver this frame, an RX_BYTE for each of its ten bytes in wire order and
then `RX_END DATA`, in one step (DESIGN CHOICE, log 7; 60_exceptions.md R110). -/
def execResponse (header payload : Word) (crc : Half) (s : State) : Host.Outcome State Fault Refusal :=
  .next (endRead .data ((responseBytes header payload crc).foldl receiveByte s))

end Sys2Proof.Machine
end

