-- ==== Sys2Proof/Machine/Dispatch.lean ====
section
/-!
DEFINITION. One arm per instruction, each one call of its meaning.
-/

namespace Sys2Proof.Machine

def exec (i : Instr) (s : State) : Host.Outcome State Fault Refusal :=
  match i with
  | .nop => Sys2Proof.Machine.execNop s
  | .crcInit => Sys2Proof.Machine.execCrcInit s
  | .crcUpdate b => Sys2Proof.Machine.execCrcUpdate b s
  | .encRead => Sys2Proof.Machine.execEncRead s
  | .encWrite => Sys2Proof.Machine.execEncWrite s
  | .send => Sys2Proof.Machine.execSend s
  | .recv => Sys2Proof.Machine.execRecv s
  | .readReq id addr crc => Sys2Proof.Machine.execReadReq id addr crc s
  | .writeReq id addr data crc => Sys2Proof.Machine.execWriteReq id addr data crc s
  | .response header payload crc => Sys2Proof.Machine.execResponse header payload crc s
  | .rxByte b => Sys2Proof.Machine.execRxByte b s
  | .rxEnd k => Sys2Proof.Machine.execRxEnd k s
  | .xportErr => Sys2Proof.Machine.execXportErr s

end Sys2Proof.Machine
end

