-- ==== Sys2Proof/WellFormed.lean ====
section
/-!
DEFINITION. Which instructions are well-formed. Every operand is a bit vector of its field's width, so the only
check left is the CRC field of a request frame (41_frame_encode.md R83).
-/

namespace Sys2Proof

/-- A request frame's C field is the CRC of its bytes 0 to 7 (the row's field C, 41_frame_encode.md R77, R83).
A response carries any CRC: its mismatch is reported in CRC_OK (42_transaction.md R98). -/
def wellFormed : Instr → Bool
  | .nop => true
  | .crcInit => true
  | .crcUpdate _ => true
  | .encRead => true
  | .encWrite => true
  | .send => true
  | .recv => true
  | .readReq id addr crc => crc == Machine.requestCrc id Config.fcRead addr Config.readLenIndicator
  | .writeReq id addr data crc => crc == Machine.requestCrc id Config.fcWrite addr data
  | .response _ _ _ => true
  | .rxByte _ => true
  | .rxEnd _ => true
  | .xportErr => true

end Sys2Proof
end

