-- ==== Sys2Proof/Decode.lean ====
section
/-!
DEFINITION. Decoding of the encoded forms (30_encoding.md R54 to R60), total and rejecting by name, and the encoder.
-/

namespace Sys2Proof

/-- Why an encoded form selects no row. A command word so rejected performs `raise CmdError`
(30_encoding.md R57, R58). -/
inductive DecodeError where
  /-- The OP field is in no row of 30_encoding.md R55 (R58). -/
  | unknownOpcode
  /-- RSVD, bits 31:16, is not 0 (30_encoding.md R57). -/
  | reservedNonzero
  /-- BYTE, bits 15:8, is not 0 and OP is not 0x02 (30_encoding.md R57). -/
  | byteNonzero
  /-- A frame presented as a request is neither a read nor a write request (30_encoding.md R59, R61). -/
  | notARequest
  deriving DecidableEq, Repr

/-- OP, bits 7:0 of a command word (30_encoding.md R54). -/
def opField (w : Word) : Byte := w.extractLsb' 0 8

/-- BYTE, bits 15:8 of a command word (30_encoding.md R54). -/
def byteField (w : Word) : Byte := w.extractLsb' 8 8

/-- RSVD, bits 31:16 of a command word (30_encoding.md R54). -/
def rsvdField (w : Word) : Half := w.extractLsb' 16 16

/-- The command with no byte operand that an OP value names (30_encoding.md R55). -/
def plainCommand (op : Byte) : Option Instr :=
  if op = 0x00#8 then some .nop
  else if op = 0x01#8 then some .crcInit
  else if op = 0x03#8 then some .encRead
  else if op = 0x06#8 then some .encWrite
  else if op = 0x10#8 then some .send
  else if op = 0x11#8 then some .recv
  else none

/-- A command word selects the row its OP names, when RSVD is 0 and BYTE is 0 or the operand of CRC_UPDATE
(30_encoding.md R54 to R58). -/
def decodeCommand (w : Word) : Except DecodeError Instr :=
  if rsvdField w ≠ 0#16 then .error .reservedNonzero
  else if opField w = 0x02#8 then .ok (.crcUpdate (byteField w))
  else match plainCommand (opField w) with
    | none => .error .unknownOpcode
    | some i => if byteField w = 0#8 then .ok i else .error .byteNonzero

/-- A request frame, by its function code byte and, for a read, its fixed payload (30_encoding.md R59, R61, R63). -/
def decodeRequest (f : FrameWord) : Except DecodeError Instr :=
  if f.extractLsb' 64 8 = Config.fcRead ∧ f.extractLsb' 16 32 = Config.readLenIndicator then
    .ok (.readReq (f.extractLsb' 72 8) (f.extractLsb' 48 16) (f.extractLsb' 0 16))
  else if f.extractLsb' 64 8 = Config.fcWrite then
    .ok (.writeReq (f.extractLsb' 72 8) (f.extractLsb' 48 16) (f.extractLsb' 16 32) (f.extractLsb' 0 16))
  else .error .notARequest

/-- A response frame: every ten bytes are one (30_encoding.md R60; its row's mask is 0). -/
def decodeResponse (f : FrameWord) : Instr :=
  .response (f.extractLsb' 48 32) (f.extractLsb' 16 32) (f.extractLsb' 0 16)

/-- Decoding of every encoded form (30_encoding.md R53). -/
def decode : Encoded → Except DecodeError Instr
  | .command w => decodeCommand w
  | .request f => decodeRequest f
  | .response f => .ok (decodeResponse f)
  | .rxByte b => .ok (.rxByte b)
  | .rxEnd k => .ok (.rxEnd k)
  | .xportErr => .ok .xportErr

/-- A command word from its fields, RSVD 0 (30_encoding.md R54). -/
def commandWord (op byte : Byte) : Word := 0#16 ++ byte ++ op

/-- A frame word from its fields: byte 0, byte 1, the address, the payload, the CRC (30_encoding.md R59). -/
def frameWord (id fc : Byte) (addr : Half) (payload : Word) (crc : Half) : FrameWord :=
  id ++ fc ++ addr ++ payload ++ crc

/-- The encoded form of an instruction (30_encoding.md R55, R59, R60). -/
def encode : Instr → Encoded
  | .nop => .command (commandWord 0x00#8 0#8)
  | .crcInit => .command (commandWord 0x01#8 0#8)
  | .crcUpdate b => .command (commandWord 0x02#8 b)
  | .encRead => .command (commandWord 0x03#8 0#8)
  | .encWrite => .command (commandWord 0x06#8 0#8)
  | .send => .command (commandWord 0x10#8 0#8)
  | .recv => .command (commandWord 0x11#8 0#8)
  | .readReq id addr crc => .request (frameWord id Config.fcRead addr Config.readLenIndicator crc)
  | .writeReq id addr data crc => .request (frameWord id Config.fcWrite addr data crc)
  | .response header payload crc => .response (header ++ payload ++ crc)
  | .rxByte b => .rxByte b
  | .rxEnd k => .rxEnd k
  | .xportErr => .xportErr

/-- The kind a bit stands for in the table-word interface only: 0 DATA, 1 TIMEOUT
(DESIGN CHOICE: the table defines no bit encoding; log 4). -/
def RxEndKind.ofBit (b : Bool) : RxEndKind := if b then .timeout else .data

/-- The encoded form that `nbits` bits `w`, numbered as spec/opcode_table.json numbers them, are presented as:
32 bits a command word, 80 bits a request frame if they match a request row and a response frame if not, 8 bits
an RX_BYTE, 1 bit an RX_END, no bits an XPORT_ERR (DESIGN CHOICE for the events; log 4). -/
def encodedOfTable (nbits w : Nat) : Option Encoded :=
  if nbits = 32 then some (.command (BitVec.ofNat 32 w))
  else if nbits = 80 then
    match decodeRequest (BitVec.ofNat 80 w) with
    | .ok _ => some (.request (BitVec.ofNat 80 w))
    | .error _ => some (.response (BitVec.ofNat 80 w))
  else if nbits = 8 then some (.rxByte (BitVec.ofNat 8 w))
  else if nbits = 1 then some (.rxEnd (RxEndKind.ofBit (w.testBit 0)))
  else if nbits = 0 then some .xportErr
  else none

/-- The instruction the decoder reads from `nbits` bits `w` of spec/opcode_table.json. -/
def decodeTableWord (nbits w : Nat) : Option Instr :=
  match encodedOfTable nbits w with
  | none => none
  | some e => (decode e).toOption

/-- The mnemonic of an instruction's row of spec/opcode_table.json. -/
def Instr.mnemonic : Instr → String
  | .nop => "NOP"
  | .crcInit => "CRC_INIT"
  | .crcUpdate _ => "CRC_UPDATE"
  | .encRead => "ENC_READ"
  | .encWrite => "ENC_WRITE"
  | .send => "SEND"
  | .recv => "RECV"
  | .readReq _ _ _ => "READ_REQ"
  | .writeReq _ _ _ _ => "WRITE_REQ"
  | .response _ _ _ => "RESPONSE"
  | .rxByte _ => "RX_BYTE"
  | .rxEnd _ => "RX_END"
  | .xportErr => "XPORT_ERR"

/-- A row of 30_encoding.md R55: a word `w` selects it when `w & mask == match`. -/
structure CommandRow where
  mnemonic : String
  pattern : Word
  mask : Word
  deriving DecidableEq, Repr

/-- `w & mask == match` of 30_encoding.md R55. -/
def CommandRow.selects (r : CommandRow) (w : Word) : Bool := w &&& r.mask == r.pattern

/-- The opcodes, complete (30_encoding.md R55). -/
def commandRows : List CommandRow :=
  [⟨"NOP", 0x00000000#32, 0xFFFFFFFF#32⟩,
   ⟨"CRC_INIT", 0x00000001#32, 0xFFFFFFFF#32⟩,
   ⟨"CRC_UPDATE", 0x00000002#32, 0xFFFF00FF#32⟩,
   ⟨"ENC_READ", 0x00000003#32, 0xFFFFFFFF#32⟩,
   ⟨"ENC_WRITE", 0x00000006#32, 0xFFFFFFFF#32⟩,
   ⟨"SEND", 0x00000010#32, 0xFFFFFFFF#32⟩,
   ⟨"RECV", 0x00000011#32, 0xFFFFFFFF#32⟩]

end Sys2Proof
end

