-- ==== Sys2Proof/Machine/Fetch.lean ====
section
/-!
DEFINITION. Where a step takes what it performs. The block fetches nothing (20_memory.md R51): a step takes the next
input of the host or the transport, and a write of CMD, a frame or an event holds an encoded instruction.
-/

namespace Sys2Proof.Machine

/-- The next input in the total order of steps, and the state that has taken it (20_memory.md R45; log 1). -/
def nextInput (s : State) : Option (Input × State) :=
  match s.inputs with
  | [] => none
  | x :: rest => some (x, { s with inputs := rest })

/-- The encoded instruction an input holds: a 32-bit write of CMD holds a command word (10_state.md R31), a frame and
an event are their own; the other host accesses and reset hold none. -/
def Input.encoded : Input → Option Encoded
  | .memRead _ _ => none
  | .memWrite off width v => if accessed off width = some .cmd then some (.command v) else none
  | .requestFrame f => some (.request f)
  | .responseFrame f => some (.response f)
  | .rxByte b => some (.rxByte b)
  | .rxEnd k => some (.rxEnd k)
  | .xportErr => some .xportErr
  | .reset => none

/-- The input that presents an encoded form: a command word is written to CMD. -/
def Input.presenting : Encoded → Input
  | .command w => .memWrite Reg.cmd.offset 4 w
  | .request f => .requestFrame f
  | .response f => .responseFrame f
  | .rxByte b => .rxByte b
  | .rxEnd k => .rxEnd k
  | .xportErr => .xportErr

/-- What follows when an encoded form selects no instruction: a command word performs `raise CmdError`
(30_encoding.md R57, R58; 60_exceptions.md R111); a request frame that is none is refused (log 16). Every response
frame and every event is an instruction, so the last arms are never reached. -/
def rejected (e : Encoded) (s : State) : Host.Outcome State Fault Refusal :=
  match e with
  | .command _ => .next (raiseCmdError s)
  | .request f => .refused (.notARequestFrame f)
  | .response _ => .next s
  | .rxByte _ => .next s
  | .rxEnd _ => .next s
  | .xportErr => .next s

/-- An input that holds no encoded instruction: a host access or reset. A frame or an event always holds one, so the
last arms are never reached. -/
def performPlain (x : Input) (s : State) : Host.Outcome State Fault Refusal :=
  match x with
  | .memRead off width => hostRead off width s
  | .memWrite off width v => hostWrite off width v s
  | .reset => .next (assertReset s)
  | .requestFrame _ => .next s
  | .responseFrame _ => .next s
  | .rxByte _ => .next s
  | .rxEnd _ => .next s
  | .xportErr => .next s

end Sys2Proof.Machine
end

