-- ==== Sys2Proof/Machine/Step.lean ====
section
/-!
DEFINITION. One step of the block: it takes the next input and performs it (00_scope.md R11, 20_memory.md R45).
-/

namespace Sys2Proof.Machine

/-- An encoded instruction is decoded and run; one that selects no row is rejected (60_exceptions.md R113). -/
def performEncoded (e : Encoded) (s : State) : Host.Outcome State Fault Refusal :=
  match decode e with
  | .ok i => exec i s
  | .error _ => rejected e s

/-- One input, performed whole as one atomic step (20_memory.md R45). -/
def performInput (x : Input) (s : State) : Host.Outcome State Fault Refusal :=
  match x.encoded with
  | some e => performEncoded e s
  | none => performPlain x s

/-- One step. With no input pending the block waits as it is (70_reset_and_hazards.md R129, R134; log 1). -/
def step (s : State) : Host.Outcome State Fault Refusal :=
  match nextInput s with
  | some (x, s') => performInput x s'
  | none => .next s

/-- `s` with the instruction of `nbits` table bits `w` as its next input (log 3, log 4). A width no row has adds
nothing. -/
def State.withFetchWord (s : State) (nbits w : Nat) : State :=
  match encodedOfTable nbits w with
  | some e => { s with inputs := Input.presenting e :: s.inputs }
  | none => s

end Sys2Proof.Machine
end

