-- ==== Sys2Proof/Machine/HostContract.lean ====
section
/-!
DEFINITION. The host contract of 60_exceptions.md section 7 and the host macros of 30_encoding.md R66. It is
surrounding software (00_scope.md R4(e)): no step calls it.
-/

namespace Sys2Proof.Machine

/-- `WR <reg>, <value>` (30_encoding.md R65). -/
def hostWR (r : Reg) (v : Word) : Input := .memWrite r.offset 4 v

/-- `RD <reg>` (30_encoding.md R65). -/
def hostRD (r : Reg) : Input := .memRead r.offset 4

/-- A command written by its mnemonic: the host write of its word to CMD (30_encoding.md R65). -/
def hostCommand (i : Instr) : Input := Input.presenting (encode i)

/-- `CRC_BYTES` (30_encoding.md R66(a)). -/
def crcBytesMacro (bs : List Byte) : List Input :=
  hostCommand .crcInit :: bs.map (fun b => hostCommand (.crcUpdate b))

/-- `READ_TXN` up to its POLL (30_encoding.md R66(b)); POLL repeats `hostRD .status` until `pollEnds` (log 18). -/
def readTxnMacro (id : Byte) (addr : Half) : List Input :=
  [hostWR .argId (zext32 id), hostWR .argAddr (zext32 addr),
    hostCommand .encRead, hostCommand .send, hostCommand .recv]

/-- `WRITE_TXN` up to its POLL (30_encoding.md R66(c)); POLL repeats `hostRD .status` until `pollEnds` (log 18). -/
def writeTxnMacro (id : Byte) (addr : Half) (data : Word) : List Input :=
  [hostWR .argId (zext32 id), hostWR .argAddr (zext32 addr), hostWR .argData data,
    hostCommand .encWrite, hostCommand .send, hostCommand .recv]

/-- `CLRFLAGS` (30_encoding.md R66(d)). -/
def clrFlagsMacro : List Input := [hostWR .flags 0x7#32]

/-- POLL ends when the STATUS read has STATE 4 or 5 (30_encoding.md R66(b)). -/
def pollEnds (status : Word) : Bool :=
  status.extractLsb' 0 3 == TxnState.decoded.code || status.extractLsb' 0 3 == TxnState.errored.code

/-- RX[0 .. RXCNT-1], the raw response (60_exceptions.md R118). -/
def rawResponse (s : State) : List Byte := s.rx.toList.take s.rxCnt.val

/-- The result of a host read transaction: value, error code, raw response (60_exceptions.md R118). -/
def readResult (s : State) : Option Int × ErrCode × List Byte :=
  (if s.valueValid then some (s32 s.value) else none, s.err, rawResponse s)

/-- The result of a host write transaction: frame bytes sent, error code (60_exceptions.md R119). -/
def writeResult (s : State) : Frame × ErrCode := (s.tx, s.err)

/-- The value of a hexadecimal digit, upper or lower case (60_exceptions.md R120). -/
def hexDigit (c : Char) : Option Nat :=
  if 48 ≤ c.toNat ∧ c.toNat ≤ 57 then some (c.toNat - 48)
  else if 65 ≤ c.toNat ∧ c.toNat ≤ 70 then some (c.toNat - 55)
  else if 97 ≤ c.toNat ∧ c.toNat ≤ 102 then some (c.toNat - 87)
  else none

/-- The value of a string of hexadecimal digits, first digit most significant, on top of `acc`. -/
def hexValue (acc : Nat) : List Char → Option Nat
  | [] => some acc
  | c :: cs => (hexDigit c).bind fun d => hexValue (16 * acc + d) cs

/-- The host's conversion of a hex-string address: 1 to 4 digits, left-padded with zeros; anything else is reported as
ValueError before any access to the block (60_exceptions.md R120). -/
def hostAddress (text : List Char) : Except ErrCode Half :=
  if 1 ≤ text.length ∧ text.length ≤ 4 then
    match hexValue 0 text with
    | some n => .ok (BitVec.ofNat 16 n)
    | none => .error .valueError
  else .error .valueError

/-- The host's conversion of a data value: −2^31 to 2^32 − 1, anything else is reported as ValueError
(60_exceptions.md R121). -/
def hostData (v : Int) : Except ErrCode Word :=
  if -2 ^ 31 ≤ v ∧ v ≤ 2 ^ 32 - 1 then .ok (u32 v) else .error .valueError

/-- How many transactions a retrying host runs at most (60_exceptions.md R122; whether the 3 counts the first is open;
log 14). -/
def hostTransactionsAllowed : Nat :=
  if Config.hostRetryCountIncludesFirst then Config.hostRetryAttempts else Config.hostRetryAttempts + 1

/-- Whether the host runs the transaction again after `ran` of them, the last ended with `e`
(60_exceptions.md R122, 90_conflicts.md C1 and C2; log 14). -/
def hostRetries (q : ReqKind) (e : ErrCode) (ran : Nat) : Bool :=
  e != .success
    && (e != .timeout || Config.hostRetryOnTimeout)
    && (q == .read || Config.hostRetryOnWrite)
    && decide (ran < hostTransactionsAllowed)

end Sys2Proof.Machine
end

