-- ==== Sys2Proof/Safety.lean ====
section
/-!
DEFINITION. What counts as a good state and as a conforming world, in the terms the statements use: the invariants of
10_state.md R36, a conforming host (20_memory.md R42) and a transport that does its duty (60_exceptions.md R110).
-/

namespace Sys2Proof.Machine

/-- The invariants of 10_state.md R36 that are not already in the types of State's fields, and the zero bytes of RX
beyond RXCNT (R21). -/
structure StateInv (s : State) : Prop where
  /-- R36(b): ERR is never ValueError. -/
  err_not_valueError : s.err ≠ .valueError
  /-- R36(c): ERR is not Success exactly in Errored. -/
  err_iff_errored : s.err ≠ .success ↔ s.state = .errored
  /-- R36(d): VALUE_VALID is 1 exactly in Decoded after a read. -/
  valueValid_iff : s.valueValid = true ↔ s.state = .decoded ∧ s.kind = .read
  /-- R36(e): a VALUE that is not 0 is valid. -/
  value_valid : s.value ≠ 0#32 → s.valueValid = true
  /-- R36(f): CRC_OK needs ten bytes and an ended read attempt. -/
  crcOk_ended : s.crcOk = true → s.rxCnt.val = 10 ∧ (s.state = .decoded ∨ s.state = .errored)
  /-- R36(g): outside Idle, TX is a well-formed frame of the kind KIND says. -/
  tx_wellFormed : s.state ≠ .idle → frameWellFormed s.tx = true ∧ (s.kind = .write ↔ s.tx[1] = Config.fcWrite)
  /-- R36(h): in Idle the transaction's state holds its reset values. -/
  idle_reset : s.state = .idle →
    s.tx = zeroFrame ∧ s.rx = zeroFrame ∧ s.rxCnt = 0 ∧ s.err = .success ∧ s.kind = .read ∧ s.crcOk = false ∧
      s.valueValid = false ∧ s.value = 0#32
  /-- R21: a byte of RX at an index from RXCNT on is 0x00. -/
  rx_beyond_zero : ∀ i : Fin 10, s.rxCnt.val ≤ i.val → s.rx[i] = 0#8

/-- An input a step never stops on: a host access is 32 bits wide at a mapped offset (20_memory.md R42), and a request
frame is a read or a write request (30_encoding.md R61). -/
def Input.conforming : Input → Bool
  | .memRead off width => (accessed off width).isSome
  | .memWrite off width _ => (accessed off width).isSome
  | .requestFrame f => (decode (.request f)).toOption.isSome
  | .responseFrame _ => true
  | .rxByte _ => true
  | .rxEnd _ => true
  | .xportErr => true
  | .reset => true

/-- What the transport owes after RX_REQUEST when its read returns: at most ten bytes, then one RX_END
(60_exceptions.md R110). -/
def dutifulAttempt (bs : List Byte) (k : RxEndKind) : List Input :=
  bs.map Input.rxByte ++ [.rxEnd k]

/-- The characters that write a hexadecimal digit, 0-9, a-f, A-F (60_exceptions.md R120), digit by digit. -/
def hexSpellings (d : Fin 16) : List Char :=
  (#v[['0'], ['1'], ['2'], ['3'], ['4'], ['5'], ['6'], ['7'], ['8'], ['9'],
    ['a', 'A'], ['b', 'B'], ['c', 'C'], ['d', 'D'], ['e', 'E'], ['f', 'F']])[d]

/-- The run of `n` steps of the machine. -/
abbrev runSteps (n : Nat) (s : State) : Host.Outcome State Fault Refusal := Host.Core.run Sys2Proof.core n s

end Sys2Proof.Machine
end

