-- ==== Sys2Proof/Certificates/Slice0/Obligations.lean ====
section
/-!
DEFINITION. The statements for the provers, in the order of OBLIGATIONS.json. In all of them a host access, a transport
event or reset is the head of `inputs` (log 1), what a host read returns is appended to `toHost` and what the block
emits to `toTransport` (log 2).
-/

open Sys2Proof Sys2Proof.Machine

/-! Encoding (30_encoding.md). -/

/-- The encoder drops no bit of an instruction: its encoded form decodes to it, whatever its operands. -/
def Obligations.DecodeOfEncodeIsTheInstruction : Prop :=
  ∀ i : Instr, decode (encode i) = .ok i

/-- The decoder drops no bit of an encoded form: what it reads encodes to the form again. -/
def Obligations.EncodeOfDecodeIsTheForm : Prop :=
  ∀ (e : Encoded) (i : Instr), decode e = .ok i → encode i = e

/-- 30_encoding.md R55: a command word decodes to the instruction of the row whose match and mask select it, and to none
where no row does. -/
def Obligations.CommandWordDecodesToTheRowItSelects : Prop :=
  (∀ (w : Word) (i : Instr), decode (.command w) = .ok i →
      ∃ r ∈ commandRows, r.selects w = true ∧ r.mnemonic = i.mnemonic) ∧
  (∀ (w : Word), ∀ r ∈ commandRows, r.selects w = true →
      ∃ i, decode (.command w) = .ok i ∧ i.mnemonic = r.mnemonic)

/-- An inference of the spec ("At most one row matches any word", 30_encoding.md section 2): no command word selects two
rows. -/
def Obligations.NoTwoCommandRowsOverlap : Prop :=
  ∀ (w : Word), ∀ r₁ ∈ commandRows, ∀ r₂ ∈ commandRows,
    r₁.selects w = true → r₂.selects w = true → r₁ = r₂

/-- Words written out from 30_encoding.md R55 and R59 decode to the instructions they stand for. That 80 bits which match
a request row are read as a request, though they may also be a response, is the model's choice (log 4). -/
def Obligations.WrittenOutWordsDecode : Prop :=
  decodeTableWord 32 0b00000000000000000000000000000000 = some .nop ∧
  decodeTableWord 32 0b00000000000000000011000100000010 = some (.crcUpdate 0x31#8) ∧
  decodeTableWord 32 0b00000000000000000000000000000110 = some .encWrite ∧
  decodeTableWord 32 0b00000000000000000000000000010001 = some .recv ∧
  decodeTableWord 80 0x0103001000000002C5F2 = some (.readReq 0x01#8 0x0010#16 0xC5F2#16) ∧
  decodeTableWord 80 0x010600100000000507E6 = some (.writeReq 0x01#8 0x0010#16 0x00000005#32 0x07E6#16) ∧
  decode (.response 0x010300100000000A03F3#80) = .ok (.response 0x01030010#32 0x0000000A#32 0x03F3#16)

/-- 30_encoding.md R57, R58: a command word with a nonzero RSVD field, with a nonzero BYTE field and an OP other than
0x02, or with an OP value in no row, matches no row; written to CMD it sets CMD_ERR and nothing else. -/
def Obligations.UnlistedCommandWordOnlySetsCmdErr : Prop :=
  ∀ (s : State) (w : Word) (rest : List Input),
    (rsvdField w ≠ 0#16 ∨ (byteField w ≠ 0#8 ∧ opField w ≠ 0x02#8) ∨
      opField w ∉ [0x00#8, 0x01#8, 0x02#8, 0x03#8, 0x06#8, 0x10#8, 0x11#8]) →
    s.inputs = .memWrite 0x00#8 4 w :: rest →
    (∀ r ∈ commandRows, r.selects w = false) ∧
      step s = .next { s with inputs := rest, cmdErr := true }

/-! Reset (10_state.md R35, 70_reset_and_hazards.md R127). -/

/-- 10_state.md R35: every piece of state takes this value on reset. -/
def Obligations.ResetStateHoldsTheSpecValues : Prop :=
  State.reset.argId = 0x00#8 ∧ State.reset.argAddr = 0x0000#16 ∧ State.reset.argData = 0x00000000#32 ∧
  State.reset.crc = 0xFFFF#16 ∧ (∀ i : Fin 10, State.reset.tx[i] = 0x00#8) ∧
  (∀ i : Fin 10, State.reset.rx[i] = 0x00#8) ∧ State.reset.rxCnt.val = 0 ∧ State.reset.state = .idle ∧
  State.reset.err.code = 0#3 ∧ State.reset.kind.code = 0#1 ∧ State.reset.crcOk = false ∧
  State.reset.valueValid = false ∧ State.reset.value = 0x00000000#32 ∧ State.reset.cmdErr = false ∧
  State.reset.rxOverrun = false ∧ State.reset.stray = false ∧
  ∀ (s : State) (rest : List Input), s.inputs = .reset :: rest →
    ∃ t, step s = .next t ∧ { t with inputs := [], toTransport := [], toHost := [] } = State.reset

/-- 70_reset_and_hazards.md R127: in any state reset gives every piece of the spec's state its reset value and sends
nothing to the transport; that the inputs to come and what the host has read stay is the model's choice (log 11). -/
def Obligations.ResetInputRestoresTheResetState : Prop :=
  ∀ (s : State) (rest : List Input), s.inputs = .reset :: rest →
    step s = .next { State.reset with inputs := rest, toTransport := s.toTransport, toHost := s.toHost }

/-! Steps (00_scope.md R11, 20_memory.md R45). -/

/-- A step whose next input presents an encoded form that decodes runs the decoded instruction, on the state that has
taken the input. -/
def Obligations.StepRunsTheDecodedInstruction : Prop :=
  ∀ (s : State) (e : Encoded) (i : Instr) (rest : List Input),
    s.inputs = Input.presenting e :: rest → decode e = .ok i →
    step s = exec i { s with inputs := rest }

/-- The model's choice (log 1): with no input pending the block stays as it is, AwaitingResponse included
(70_reset_and_hazards.md section 3). -/
def Obligations.StepWaitsWhenNothingIsPending : Prop :=
  ∀ s : State, s.inputs = [] → step s = .next s

/-- 20_memory.md R42: a read or write that is not 32 bits wide, not at a multiple of 4, or at an offset no register
has, is BusFault. -/
def Obligations.BadHostAccessIsBusFault : Prop :=
  ∀ (s : State) (off : Offset) (width : Nat) (v : Word) (rest : List Input),
    (width ≠ 4 ∨ off.toNat % 4 ≠ 0 ∨ ∀ r : Reg, r.offset ≠ off) →
    (s.inputs = .memRead off width :: rest → step s = .fault (.busFault off)) ∧
    (s.inputs = .memWrite off width v :: rest → step s = .fault (.busFault off))

/-- Nothing but a bad host access, or a request frame that is none (log 16), stops a step: on a conforming input, in
every state, it answers a next state. That a request frame and a response frame are inputs at all is the model's choice
(log 5, log 7). -/
def Obligations.ConformingInputNeverStops : Prop :=
  ∀ (s : State) (x : Input) (rest : List Input),
    s.inputs = x :: rest → x.conforming = true → ∃ t, step s = .next t

/-! The register window (10_state.md R29 to R37). -/

/-- 10_state.md R32: the offsets of the registers, and that a 32-bit access reaches a register exactly at its offset. -/
def Obligations.RegisterMapIsComplete : Prop :=
  Reg.cmd.offset = 0x00#8 ∧ Reg.status.offset = 0x04#8 ∧ Reg.flags.offset = 0x08#8 ∧ Reg.argId.offset = 0x0C#8 ∧
  Reg.argAddr.offset = 0x10#8 ∧ Reg.argData.offset = 0x14#8 ∧ Reg.crc.offset = 0x18#8 ∧
  Reg.value.offset = 0x1C#8 ∧
  (∀ i : Fin 10, (Reg.tx i).offset.toNat = 0x40 + 4 * i.val) ∧
  (∀ i : Fin 10, (Reg.rx i).offset.toNat = 0x80 + 4 * i.val) ∧
  (∀ (off : Offset) (r : Reg), accessed off 4 = some r ↔ r.offset = off)

/-- A host read returns the register's value, zero-extended, and changes no register (10_state.md R16 to R21, R28, R31;
20_memory.md R46). -/
def Obligations.HostReadReturnsTheRegister : Prop :=
  ∀ (s : State) (r : Reg) (rest : List Input), s.inputs = .memRead r.offset 4 :: rest →
    step s = .next { s with
      inputs := rest
      toHost := s.toHost ++ [
        match r with
        | .cmd => 0#32
        | .status => statusWord s
        | .flags => flagsWord s
        | .argId => s.argId.setWidth 32
        | .argAddr => s.argAddr.setWidth 32
        | .argData => s.argData
        | .crc => s.crc.setWidth 32
        | .value => s.value
        | .tx i => s.tx[i].setWidth 32
        | .rx i => s.rx[i].setWidth 32] }

/-- 10_state.md R29: the fields of STATUS, its reserved bits, that reading it has no side effect and writing it is
ignored, and its reset value; with the numbers 10_state.md section 5 gives the states, the outcome codes and the kinds. -/
def Obligations.StatusRegisterLayout : Prop :=
  (TxnState.idle.code = 0#3 ∧ TxnState.frameBuilt.code = 1#3 ∧ TxnState.sent.code = 2#3 ∧
    TxnState.awaitingResponse.code = 3#3 ∧ TxnState.decoded.code = 4#3 ∧ TxnState.errored.code = 5#3) ∧
  (ErrCode.success.code = 0#3 ∧ ErrCode.communicationError.code = 1#3 ∧ ErrCode.valueError.code = 2#3 ∧
    ErrCode.indexError.code = 3#3 ∧ ErrCode.timeout.code = 4#3) ∧
  (ReqKind.read.code = 0#1 ∧ ReqKind.write.code = 1#1) ∧
  (∀ s : State,
    (statusWord s).extractLsb' 0 3 = s.state.code ∧
    (statusWord s).getLsbD 3 = false ∧
    (statusWord s).extractLsb' 4 3 = s.err.code ∧
    (statusWord s).getLsbD 7 = false ∧
    ((statusWord s).extractLsb' 8 4).toNat = s.rxCnt.val ∧
    (statusWord s).getLsbD 12 = s.crcOk ∧
    (statusWord s).getLsbD 13 = s.valueValid ∧
    (statusWord s).extractLsb' 14 1 = s.kind.code ∧
    (statusWord s).extractLsb' 15 17 = 0#17) ∧
  (∀ (s : State) (rest : List Input), s.inputs = .memRead 0x04#8 4 :: rest →
    step s = .next { s with inputs := rest, toHost := s.toHost ++ [statusWord s] }) ∧
  (∀ (s : State) (v : Word) (rest : List Input), s.inputs = .memWrite 0x04#8 4 v :: rest →
    step s = .next { s with inputs := rest }) ∧
  statusWord State.reset = 0x00000000#32

/-- The word FLAGS reads as, and that a host write clears the bits written with 1 and nothing else
(10_state.md R30). -/
def Obligations.FlagsReadAndWriteOneToClear : Prop :=
  (∀ s : State,
    (flagsWord s).getLsbD 0 = s.cmdErr ∧ (flagsWord s).getLsbD 1 = s.rxOverrun ∧
    (flagsWord s).getLsbD 2 = s.stray ∧ (flagsWord s).extractLsb' 3 29 = 0#29) ∧
  (∀ (s : State) (v : Word) (rest : List Input), s.inputs = .memWrite 0x08#8 4 v :: rest →
    step s = .next { s with
      inputs := rest
      cmdErr := s.cmdErr && !v.getLsbD 0
      rxOverrun := s.rxOverrun && !v.getLsbD 1
      stray := s.stray && !v.getLsbD 2 })

/-- A flag, once set, stays set through every step but a host write of FLAGS and reset (10_state.md R30,
60_exceptions.md R115). -/
def Obligations.FlagsStaySet : Prop :=
  ∀ (s t : State) (x : Input) (rest : List Input),
    s.inputs = x :: rest → step s = .next t → x ≠ .reset → (∀ v, x ≠ .memWrite 0x08#8 4 v) →
    (s.cmdErr = true → t.cmdErr = true) ∧ (s.rxOverrun = true → t.rxOverrun = true) ∧
      (s.stray = true → t.stray = true)

/-- A host write of an argument register stores its low bits and changes nothing else, TX included (10_state.md R16 to
R18, R38). -/
def Obligations.ArgumentRegisterWrites : Prop :=
  ∀ (s : State) (v : Word) (rest : List Input),
    (s.inputs = .memWrite 0x0C#8 4 v :: rest →
      step s = .next { s with inputs := rest, argId := v.extractLsb' 0 8 }) ∧
    (s.inputs = .memWrite 0x10#8 4 v :: rest →
      step s = .next { s with inputs := rest, argAddr := v.extractLsb' 0 16 }) ∧
    (s.inputs = .memWrite 0x14#8 4 v :: rest →
      step s = .next { s with inputs := rest, argData := v })

/-- 10_state.md R37: a host write to a read-only register changes nothing, and a read of CMD returns 0. -/
def Obligations.ReadOnlyRegistersIgnoreWrites : Prop :=
  (∀ (s : State) (r : Reg) (v : Word) (rest : List Input),
    (r = .status ∨ r = .crc ∨ r = .value ∨ (∃ i, r = .tx i) ∨ ∃ i, r = .rx i) →
    s.inputs = .memWrite r.offset 4 v :: rest → step s = .next { s with inputs := rest }) ∧
  (∀ (s : State) (rest : List Input), s.inputs = .memRead 0x00#8 4 :: rest →
    step s = .next { s with inputs := rest, toHost := s.toHost ++ [0x00000000#32] })

/-! The CRC generator (40_crc.md). -/

/-- 40_crc.md R68: the byte step is eight shifts of the accumulator XORed with the byte, the low bit before each shift
deciding whether 0xA001 is XORed in. -/
def Obligations.CrcStepIsEightShifts : Prop :=
  ∀ (c : Half) (b : Byte),
    crcStep c b =
      (fun c : Half => if c.getLsbD 0 = false then c >>> 1 else (c >>> 1) ^^^ 0xA001#16)^[8] (c ^^^ b.setWidth 16)

/-- Consequences the spec infers (40_crc.md section 1, "Consequences a model may rely on"): the empty sequence, folding byte by byte, that the step is a bijection of the accumulator for each
byte, its fixed point at 0, the check value, and the CRC of a whole frame. -/
def Obligations.CrcConsequences : Prop :=
  crc16 [] = 0xFFFF#16 ∧
  (∀ (s : List Byte) (b : Byte), crc16 (s ++ [b]) = crcStep (crc16 s) b) ∧
  (∀ b : Byte, Function.Bijective fun c => crcStep c b) ∧
  crcStep 0x0000#16 0x00#8 = 0x0000#16 ∧
  crc16 [0x31#8, 0x32#8, 0x33#8, 0x34#8, 0x35#8, 0x36#8, 0x37#8, 0x38#8, 0x39#8] = 0x4B37#16 ∧
  crc16 [0x01#8, 0x03#8, 0x00#8, 0x10#8, 0x00#8, 0x00#8, 0x00#8, 0x02#8, 0xC5#8, 0xF2#8] = 0xE657#16

/-- 40_crc.md R71: NOP is the word 0x00000000, any other word with OP 0x00 is illegal, and NOP leaves everything. -/
def Obligations.NopLeavesEverything : Prop :=
  decode (.command 0x00000000#32) = .ok .nop ∧
  (∀ (w : Word) (i : Instr), opField w = 0x00#8 → w ≠ 0x00000000#32 → decode (.command w) ≠ .ok i) ∧
  ∀ s : State, exec .nop s = .next s

/-- 40_crc.md R72: CRC_INIT sets the accumulator to 0xFFFF in every state and changes nothing else. -/
def Obligations.CrcInitSetsTheAccumulator : Prop :=
  decode (.command 0x00000001#32) = .ok .crcInit ∧
  ∀ s : State, exec .crcInit s = .next { s with crc := 0xFFFF#16 }

/-- 40_crc.md R73: CRC_UPDATE folds bits 15:8 of its word into the accumulator in every state and changes nothing else;
bits 31:16 must be 0; and its corner values. -/
def Obligations.CrcUpdateFoldsItsByte : Prop :=
  (∀ w : Word, opField w = 0x02#8 → rsvdField w = 0#16 →
    decode (.command w) = .ok (.crcUpdate (w.extractLsb' 8 8))) ∧
  (∀ (w : Word) (i : Instr), opField w = 0x02#8 → rsvdField w ≠ 0#16 → decode (.command w) ≠ .ok i) ∧
  (∀ (s : State) (b : Byte), exec (.crcUpdate b) s = .next { s with crc := crcStep s.crc b }) ∧
  crcStep 0xFFFF#16 0x00#8 = 0x40BF#16 ∧ crcStep 0xFFFF#16 0xFF#8 = 0x00FF#16 ∧
  crcStep 0x0000#16 0x00#8 = 0x0000#16 ∧ crcStep 0xFFFF#16 0x01#8 = 0x807E#16

/-- An inference of the spec (30_encoding.md section 4, 40_crc.md section 2): the CRC_BYTES macro and a read of CRC return the CRC of the bytes to the host, and change
nothing but the accumulator. -/
def Obligations.CrcBytesMacroReturnsTheCrc : Prop :=
  ∀ (s : State) (bs : List Byte) (rest : List Input),
    s.inputs = crcBytesMacro bs ++ hostRD .crc :: rest →
    runSteps (bs.length + 2) s =
      .next { s with inputs := rest, crc := crc16 bs, toHost := s.toHost ++ [(crc16 bs).setWidth 32] }

/-- 40_crc.md R74, 10_state.md R19: every instruction but the two CRC commands does the same whatever the accumulator
holds, and leaves it. -/
def Obligations.CrcRegisterIsIndependent : Prop :=
  ∀ (i : Instr) (s t : State) (c : Half), i ≠ .crcInit → (∀ b, i ≠ .crcUpdate b) → exec i s = .next t →
    exec i { s with crc := c } = .next { t with crc := c } ∧ t.crc = s.crc

/-! Frames (41_frame_encode.md). -/

/-- 41_frame_encode.md R76, R77: the ten bytes of the frame the function builds, the CRC of bytes 0 to 7 high byte
first, and the frame a read and a write request is. -/
def Obligations.BuiltFrameLayout : Prop :=
  (∀ (id fc : Byte) (addr : Half) (payload : Word),
    (buildFrame id fc addr payload).toList =
      ([id, fc] ++ [addr.extractLsb' 8 8, addr.extractLsb' 0 8] ++
          [payload.extractLsb' 24 8, payload.extractLsb' 16 8, payload.extractLsb' 8 8, payload.extractLsb' 0 8]) ++
        [(crc16 ([id, fc] ++ [addr.extractLsb' 8 8, addr.extractLsb' 0 8] ++
            [payload.extractLsb' 24 8, payload.extractLsb' 16 8, payload.extractLsb' 8 8,
              payload.extractLsb' 0 8])).extractLsb' 8 8,
          (crc16 ([id, fc] ++ [addr.extractLsb' 8 8, addr.extractLsb' 0 8] ++
            [payload.extractLsb' 24 8, payload.extractLsb' 16 8, payload.extractLsb' 8 8,
              payload.extractLsb' 0 8])).extractLsb' 0 8]) ∧
  (∀ s : State, s.state ≠ .sent → s.state ≠ .awaitingResponse →
    ∃ t, exec .encRead s = .next t ∧ t.tx = buildFrame s.argId 3#8 s.argAddr 0x00000002#32) ∧
  (∀ s : State, s.state ≠ .sent → s.state ≠ .awaitingResponse →
    ∃ t, exec .encWrite s = .next t ∧ t.tx = buildFrame s.argId 6#8 s.argAddr s.argData)

/-- 41_frame_encode.md R83: what well-formed means of ten bytes. -/
def Obligations.WellFormedMeansTheCrcMatches : Prop :=
  ∀ f : Frame, frameWellFormed f = true ↔
    crc16 [f[0], f[1], f[2], f[3], f[4], f[5], f[6], f[7]] =
      (f[8].setWidth 16 <<< 8 ||| f[9].setWidth 16)

/-- An inference of the spec (41_frame_encode.md section 3): every frame ENC_READ and ENC_WRITE put in TX is
well-formed. -/
def Obligations.EncodedFramesAreWellFormed : Prop :=
  ∀ s : State, s.state ≠ .sent → s.state ≠ .awaitingResponse →
    (∃ t, exec .encRead s = .next t ∧ frameWellFormed t.tx = true) ∧
    (∃ t, exec .encWrite s = .next t ∧ frameWellFormed t.tx = true)

/-- An inference of the spec (41_frame_encode.md section 3, "Round trip"): after the host writes an address and a pattern and ENC_WRITE, TX gives both back, and the
signed reading of the pattern is the value it encodes. -/
def Obligations.WriteFrameRoundTrip : Prop :=
  ∀ (s : State) (a : Half) (p : Word) (rest : List Input),
    s.state ≠ .sent → s.state ≠ .awaitingResponse →
    s.inputs = hostWR .argAddr (a.setWidth 32) :: hostWR .argData p :: hostCommand .encWrite :: rest →
    ∃ t, runSteps 3 s = .next t ∧
      (t.tx[2].setWidth 16 <<< 8 ||| t.tx[3].setWidth 16) = a ∧
      (t.tx[4].setWidth 32 <<< 24 ||| t.tx[5].setWidth 32 <<< 16 ||| t.tx[6].setWidth 32 <<< 8 |||
        t.tx[7].setWidth 32) = p ∧
      ∀ v : Int, -2 ^ 31 ≤ v → v < 2 ^ 31 → u32 v = p → s32 (framePayload t.tx) = v

/-- 41_frame_encode.md R79: ENC_READ, in a state that may run it and in one that may not. -/
def Obligations.EncReadBuildsTheReadFrame : Prop :=
  decode (.command 0x00000003#32) = .ok .encRead ∧
  (∀ s : State, s.state ≠ .sent → s.state ≠ .awaitingResponse →
    exec .encRead s = .next { s with
      tx := buildFrame s.argId 3#8 s.argAddr 0x00000002#32
      kind := .read
      rx := zeroFrame
      rxCnt := 0
      crcOk := false
      err := .success
      value := 0#32
      valueValid := false
      state := .frameBuilt }) ∧
  (∀ s : State, s.state = .sent ∨ s.state = .awaitingResponse →
    exec .encRead s = .next { s with cmdErr := true })

/-- 41_frame_encode.md R80: ENC_WRITE, in a state that may run it and in one that may not. -/
def Obligations.EncWriteBuildsTheWriteFrame : Prop :=
  decode (.command 0x00000006#32) = .ok .encWrite ∧
  (∀ s : State, s.state ≠ .sent → s.state ≠ .awaitingResponse →
    exec .encWrite s = .next { s with
      tx := buildFrame s.argId 6#8 s.argAddr s.argData
      kind := .write
      rx := zeroFrame
      rxCnt := 0
      crcOk := false
      err := .success
      value := 0#32
      valueValid := false
      state := .frameBuilt }) ∧
  (∀ s : State, s.state = .sent ∨ s.state = .awaitingResponse →
    exec .encWrite s = .next { s with cmdErr := true })

/-! The request frame patterns: their meaning is the model's choice (log 5). -/

/-- The model's choice (log 5, log 6): READ_REQ and WRITE_REQ store their fields in the argument registers and build
the frame; while a transaction is in flight they store the fields and set CMD_ERR. -/
def Obligations.RequestFramesSetArgumentsAndBuild : Prop :=
  (∀ (s : State) (id : Byte) (addr crc : Half), s.state ≠ .sent → s.state ≠ .awaitingResponse →
    exec (.readReq id addr crc) s = .next { s with
      argId := id
      argAddr := addr
      tx := buildFrame id 3#8 addr 0x00000002#32
      kind := .read
      rx := zeroFrame
      rxCnt := 0
      crcOk := false
      err := .success
      value := 0#32
      valueValid := false
      state := .frameBuilt }) ∧
  (∀ (s : State) (id : Byte) (addr : Half) (data : Word) (crc : Half),
    s.state ≠ .sent → s.state ≠ .awaitingResponse →
    exec (.writeReq id addr data crc) s = .next { s with
      argId := id
      argAddr := addr
      argData := data
      tx := buildFrame id 6#8 addr data
      kind := .write
      rx := zeroFrame
      rxCnt := 0
      crcOk := false
      err := .success
      value := 0#32
      valueValid := false
      state := .frameBuilt }) ∧
  (∀ (s : State) (id : Byte) (addr : Half) (data : Word) (crc : Half),
    s.state = .sent ∨ s.state = .awaitingResponse →
    exec (.readReq id addr crc) s = .next { s with argId := id, argAddr := addr, cmdErr := true } ∧
    exec (.writeReq id addr data crc) s =
      .next { s with argId := id, argAddr := addr, argData := data, cmdErr := true })

/-- The model's choice (log 5): one step of a request frame gives what the host steps it stands for give, one after
the other, in every state. -/
def Obligations.RequestFrameStepIsItsHostSteps : Prop :=
  (∀ (s : State) (id : Byte) (addr crc : Half) (rest : List Input),
    step { s with inputs := Input.presenting (encode (.readReq id addr crc)) :: rest } =
      runSteps 3 { s with
        inputs := hostWR .argId (id.setWidth 32) :: hostWR .argAddr (addr.setWidth 32) :: hostCommand .encRead ::
          rest }) ∧
  (∀ (s : State) (id : Byte) (addr : Half) (data : Word) (crc : Half) (rest : List Input),
    step { s with inputs := Input.presenting (encode (.writeReq id addr data crc)) :: rest } =
      runSteps 4 { s with
        inputs := hostWR .argId (id.setWidth 32) :: hostWR .argAddr (addr.setWidth 32) :: hostWR .argData data ::
          hostCommand .encWrite :: rest })

/-- The model's choice (log 5, log 6): a well-formed request frame, taken in a state that may build one, is byte for
byte what TX then holds (30_encoding.md section 3). -/
def Obligations.WellFormedRequestFrameLandsInTx : Prop :=
  ∀ (s : State) (f : FrameWord) (i : Instr), decode (.request f) = .ok i → wellFormed i = true →
    s.state ≠ .sent → s.state ≠ .awaitingResponse →
    ∃ t, exec i s = .next t ∧ t.tx = frameBytes f ∧ t.state = .frameBuilt

/-! The transaction (42_transaction.md). -/

/-- 42_transaction.md R90: SEND hands TX to the transport in FrameBuilt, and sets CMD_ERR in every other state. -/
def Obligations.SendHandsTheFrameToTheTransport : Prop :=
  decode (.command 0x00000010#32) = .ok .send ∧
  (∀ s : State, s.state = .frameBuilt →
    exec .send s = .next { s with toTransport := s.toTransport ++ [.txWrite s.tx], state := .sent }) ∧
  (∀ s : State, s.state ≠ .frameBuilt → exec .send s = .next { s with cmdErr := true })

/-- 42_transaction.md R91: RECV clears RX and asks for ten bytes in Sent, and sets CMD_ERR in every other state. -/
def Obligations.RecvOpensTheReadAttempt : Prop :=
  decode (.command 0x00000011#32) = .ok .recv ∧
  (∀ s : State, s.state = .sent →
    exec .recv s = .next { s with
      rx := zeroFrame
      rxCnt := 0
      crcOk := false
      toTransport := s.toTransport ++ [.rxRequest 10]
      state := .awaitingResponse }) ∧
  (∀ s : State, s.state ≠ .sent → exec .recv s = .next { s with cmdErr := true })

/-- 42_transaction.md R92: RX_BYTE stores its byte at RXCNT and counts it in AwaitingResponse with RXCNT below 10, sets
RX_OVERRUN with RXCNT 10, and sets STRAY in every other state. -/
def Obligations.RxByteStoresAtRxcnt : Prop :=
  (∀ (s : State) (b : Byte), s.state = .awaitingResponse → s.rxCnt.val < 10 →
    ∃ t, exec (.rxByte b) s = .next t ∧ t.rxCnt.val = s.rxCnt.val + 1 ∧
      (∀ j : Fin 10, t.rx[j] = if j.val = s.rxCnt.val then b else s.rx[j]) ∧
      t = { s with rx := t.rx, rxCnt := t.rxCnt }) ∧
  (∀ (s : State) (b : Byte), s.state = .awaitingResponse → s.rxCnt.val = 10 →
    exec (.rxByte b) s = .next { s with rxOverrun := true }) ∧
  (∀ (s : State) (b : Byte), s.state ≠ .awaitingResponse → exec (.rxByte b) s = .next { s with stray := true })

/-- 42_transaction.md R93, with R95, R96 and R98: RX_END in AwaitingResponse settles the outcome by KIND, its own kind
and RXCNT, and reports the CRC check; in every other state it sets STRAY. -/
def Obligations.RxEndSettlesTheOutcome : Prop :=
  (∀ (s : State) (k : RxEndKind), s.state ≠ .awaitingResponse →
    exec (.rxEnd k) s = .next { s with stray := true }) ∧
  (∀ (s : State) (k : RxEndKind), s.state = .awaitingResponse → k = .timeout ∨ s.rxCnt.val = 0 →
    exec (.rxEnd k) s = .next { s with
      crcOk := decide (s.rxCnt.val = 10 ∧ frameWellFormed s.rx = true)
      state := .errored
      err := .timeout
      value := 0#32
      valueValid := false }) ∧
  (∀ s : State, s.state = .awaitingResponse → s.kind = .read → 0 < s.rxCnt.val → s.rxCnt.val < 10 →
    exec (.rxEnd .data) s = .next { s with
      crcOk := false
      state := .errored
      err := .indexError
      value := 0#32
      valueValid := false }) ∧
  (∀ s : State, s.state = .awaitingResponse → s.kind = .read → s.rxCnt.val = 10 →
    exec (.rxEnd .data) s = .next { s with
      crcOk := frameWellFormed s.rx
      state := .decoded
      err := .success
      value := framePayload s.rx
      valueValid := true }) ∧
  (∀ s : State, s.state = .awaitingResponse → s.kind = .write → 0 < s.rxCnt.val →
    exec (.rxEnd .data) s = .next { s with
      crcOk := decide (s.rxCnt.val = 10 ∧ frameWellFormed s.rx = true)
      state := .decoded
      err := .success })

/-- 42_transaction.md R97: the decoded value is the big-endian payload, a successful read writes it to VALUE, and the
signed value the host takes is `s32(VALUE)`, the two's complement reading (00_scope.md R9). -/
def Obligations.DecodedValueIsTheBigEndianPayload : Prop :=
  (∀ f : Frame, framePayload f =
    (f[4].setWidth 32 <<< 24 ||| f[5].setWidth 32 <<< 16 ||| f[6].setWidth 32 <<< 8 ||| f[7].setWidth 32)) ∧
  (∀ s : State, s.state = .awaitingResponse → s.kind = .read → s.rxCnt.val = 10 →
    ∃ t, exec (.rxEnd .data) s = .next t ∧ t.value = framePayload s.rx ∧ t.valueValid = true ∧
      (readResult t).1 = some (s32 t.value)) ∧
  (∀ p : Word, s32 p = if p.toNat < 2 ^ 31 then (p.toNat : Int) else (p.toNat : Int) - 2 ^ 32)

/-- An inference of the spec (42_transaction.md section 4, the corner cases of the decoded value): the signed reading of
the corner payloads. -/
def Obligations.SignedReadingOfCornerPayloads : Prop :=
  s32 (word4 0x00#8 0x00#8 0x00#8 0x0A#8) = 10 ∧ s32 (word4 0xFF#8 0xFF#8 0xFF#8 0xFF#8) = -1 ∧
  s32 (word4 0x80#8 0x00#8 0x00#8 0x00#8) = -2 ^ 31 ∧ s32 (word4 0x7F#8 0xFF#8 0xFF#8 0xFF#8) = 2 ^ 31 - 1 ∧
  s32 (word4 0x00#8 0x00#8 0x00#8 0x00#8) = 0

/-- 42_transaction.md R94: XPORT_ERR ends the transaction with CommunicationError in Sent and in AwaitingResponse, and
sets STRAY in every other state. -/
def Obligations.XportErrEndsTheTransaction : Prop :=
  (∀ s : State, s.state = .sent ∨ s.state = .awaitingResponse →
    exec .xportErr s = .next { s with
      state := .errored
      err := .communicationError
      value := 0#32
      valueValid := false }) ∧
  (∀ s : State, s.state ≠ .sent → s.state ≠ .awaitingResponse →
    exec .xportErr s = .next { s with stray := true })

/-- The model's choice (log 7): a response frame taken with RXCNT 0 fills RX with its ten bytes and decodes; in a state
that awaits no response it sets STRAY and nothing else. -/
def Obligations.ResponseFrameIsReceivedAndDecoded : Prop :=
  (∀ (s : State) (header payload : Word) (crc : Half),
    s.state = .awaitingResponse → s.rxCnt.val = 0 → s.kind = .read →
    exec (.response header payload crc) s = .next { s with
      rx := frameBytes (header ++ payload ++ crc)
      rxCnt := 10
      crcOk := frameWellFormed (frameBytes (header ++ payload ++ crc))
      state := .decoded
      err := .success
      value := payload
      valueValid := true }) ∧
  (∀ (s : State) (header payload : Word) (crc : Half),
    s.state = .awaitingResponse → s.rxCnt.val = 0 → s.kind = .write →
    exec (.response header payload crc) s = .next { s with
      rx := frameBytes (header ++ payload ++ crc)
      rxCnt := 10
      crcOk := frameWellFormed (frameBytes (header ++ payload ++ crc))
      state := .decoded
      err := .success }) ∧
  (∀ (s : State) (header payload : Word) (crc : Half), s.state ≠ .awaitingResponse →
    exec (.response header payload crc) s = .next { s with stray := true })

/-- The model's choice (log 7): one step of a response frame gives what the transport's eleven events for it give, one
after the other, in every state. -/
def Obligations.ResponseFrameStepIsItsEvents : Prop :=
  ∀ (s : State) (f : FrameWord) (rest : List Input),
    step { s with inputs := .responseFrame f :: rest } =
      runSteps 11 { s with inputs := dutifulAttempt (frameBytes f).toList .data ++ rest }

/-! The machine as a whole. -/

/-- The invariants of 10_state.md section 9 hold at reset. -/
def Obligations.ResetSatisfiesTheInvariants : Prop :=
  StateInv State.reset

/-- Every step of every state keeps the invariants of 10_state.md section 9. -/
def Obligations.StepKeepsTheInvariants : Prop :=
  ∀ s t : State, StateInv s → step s = .next t → StateInv t

/-- An inference of the spec (10_state.md section 9): in every state reachable from reset, whatever the host and the transport do, RXCNT is at most 10,
STATE and ERR take the listed codes, and the invariants hold. That RXCNT passes 10 and STATE 5 in no state at all is in
their types (log 10). -/
def Obligations.ReachableStatesSatisfyTheInvariants : Prop :=
  ∀ (xs : List Input) (n : Nat) (t : State), runSteps n { State.reset with inputs := xs } = .next t →
    t.rxCnt.val ≤ 10 ∧ t.state.code.toNat ≤ 5 ∧ t.err.code.toNat ∈ [0, 1, 3, 4] ∧ StateInv t

/-- A read attempt ends only by RX_END, XPORT_ERR or reset (42_transaction.md section 5; a whole response frame, log 7,
holds an RX_END). -/
def Obligations.OnlyTransportOrResetEndsTheAttempt : Prop :=
  ∀ (s t : State) (x : Input) (rest : List Input), s.state = .awaitingResponse → s.inputs = x :: rest →
    step s = .next t → t.state ≠ .awaitingResponse →
    (∃ k, x = .rxEnd k) ∨ x = .xportErr ∨ x = .reset ∨ ∃ f, x = .responseFrame f

/-- Decoded and Errored are left only by ENC_READ, ENC_WRITE and reset (42_transaction.md section 5; a request frame,
log 5, holds one of the two), and by nothing else is ERR or VALUE changed there. -/
def Obligations.TerminalStatesAreLeftOnlyByEncOrReset : Prop :=
  ∀ (s t : State) (x : Input) (rest : List Input), s.state = .decoded ∨ s.state = .errored →
    s.inputs = x :: rest → step s = .next t →
    (t.state = s.state ∧ t.err = s.err ∧ t.value = s.value ∧ t.valueValid = s.valueValid) ∨
      x = hostCommand .encRead ∨ x = hostCommand .encWrite ∨ x = .reset ∨ ∃ f, x = .requestFrame f

/-- The block hands the transport something in two cases only: the frame of TX as FrameBuilt becomes Sent, and one read
request as Sent becomes AwaitingResponse. Sent is entered only from FrameBuilt, AwaitingResponse only from Sent, and
FrameBuilt only by ENC_READ or ENC_WRITE outside Sent and AwaitingResponse (a request frame, log 5, holds one of the
two): so a frame is sent once and read for once (42_transaction.md section 5). -/
def Obligations.EachFrameIsSentOnceAndReadOnce : Prop :=
  (∀ s t : State, step s = .next t →
    (t.toTransport = s.toTransport ∨
      (s.state = .frameBuilt ∧ t.state = .sent ∧ t.toTransport = s.toTransport ++ [.txWrite s.tx]) ∨
      (s.state = .sent ∧ t.state = .awaitingResponse ∧ t.toTransport = s.toTransport ++ [.rxRequest 10])) ∧
    (t.state = .sent → (s.state = .sent ∧ t.toTransport = s.toTransport) ∨
      (s.state = .frameBuilt ∧ t.toTransport = s.toTransport ++ [.txWrite s.tx])) ∧
    (t.state = .awaitingResponse → (s.state = .awaitingResponse ∧ t.toTransport = s.toTransport) ∨
      (s.state = .sent ∧ t.toTransport = s.toTransport ++ [.rxRequest 10]))) ∧
  (∀ (s t : State) (x : Input) (rest : List Input), s.inputs = x :: rest → step s = .next t →
    t.state = .frameBuilt →
    (s.state = .frameBuilt ∧ t.toTransport = s.toTransport) ∨
      (s.state ≠ .sent ∧ s.state ≠ .awaitingResponse ∧
        (x = hostCommand .encRead ∨ x = hostCommand .encWrite ∨ ∃ f, x = .requestFrame f)))

/-- TX and KIND change only by ENC_READ, ENC_WRITE and reset (10_state.md R20, R25; a request frame, log 5, holds one of
the two commands). -/
def Obligations.TxAndKindChangeOnlyByEncOrReset : Prop :=
  ∀ (s t : State) (x : Input) (rest : List Input), s.inputs = x :: rest → step s = .next t →
    (t.tx = s.tx ∧ t.kind = s.kind) ∨
      x = hostCommand .encRead ∨ x = hostCommand .encWrite ∨ x = .reset ∨ ∃ f, x = .requestFrame f

/-- No command and no transport event writes an argument register: each of the three changes only by a host write of
that register and by reset (10_state.md section 1; a request frame, log 5, holds such writes). -/
def Obligations.OnlyTheHostWritesArguments : Prop :=
  ∀ (s t : State) (x : Input) (rest : List Input), s.inputs = x :: rest → step s = .next t →
    (t.argId = s.argId ∨ (∃ v, x = hostWR .argId v) ∨ x = .reset ∨ ∃ f, x = .requestFrame f) ∧
    (t.argAddr = s.argAddr ∨ (∃ v, x = hostWR .argAddr v) ∨ x = .reset ∨ ∃ f, x = .requestFrame f) ∧
    (t.argData = s.argData ∨ (∃ v, x = hostWR .argData v) ∨ x = .reset ∨ ∃ f, x = .requestFrame f)

/-- The block never produces ValueError (42_transaction.md section 5). -/
def Obligations.ValueErrorIsNeverProduced : Prop :=
  ∀ s t : State, s.err ≠ .valueError → step s = .next t → t.err ≠ .valueError

/-- Transport events that come outside a transaction in flight, such as after a reset that abandoned one, set STRAY and
nothing else, however many come (70_reset_and_hazards.md section 1). -/
def Obligations.LateTransportEventsAreStray : Prop :=
  ∀ (s : State) (es rest : List Input), s.state ≠ .sent → s.state ≠ .awaitingResponse → es ≠ [] →
    (∀ e ∈ es, (∃ b, e = .rxByte b) ∨ (∃ k, e = .rxEnd k) ∨ e = .xportErr) →
    s.inputs = es ++ rest →
    runSteps es.length s = .next { s with inputs := rest, stray := true }

/-- A transport that does its duty after RECV, at most ten bytes and then one RX_END or one XPORT_ERR, ends the attempt:
every byte is in RX in order, the bytes of RX beyond them stay, and the outcome is the one 42_transaction.md gives (60_exceptions.md section 2). -/
def Obligations.DutifulTransportEndsTheAttempt : Prop :=
  (∀ (s : State) (bs : List Byte) (k : RxEndKind) (rest : List Input),
    s.state = .awaitingResponse → s.rxCnt.val = 0 → bs.length ≤ 10 → s.inputs = dutifulAttempt bs k ++ rest →
    ∃ t, runSteps (bs.length + 1) s = .next t ∧ t.inputs = rest ∧ t.rxCnt.val = bs.length ∧
      (∀ (i : Fin 10) (h : i.val < bs.length), t.rx[i] = bs[i.val]) ∧
      (∀ i : Fin 10, bs.length ≤ i.val → t.rx[i] = s.rx[i]) ∧ t.tx = s.tx ∧ t.crc = s.crc ∧
      t.err =
        (if k = .timeout ∨ bs.length = 0 then .timeout
          else if s.kind = .read ∧ bs.length < 10 then .indexError else .success) ∧
      (t.state = .decoded ∨ t.state = .errored) ∧ (t.state = .errored ↔ t.err ≠ .success)) ∧
  (∀ (s : State) (bs : List Byte) (rest : List Input),
    s.state = .awaitingResponse → s.rxCnt.val = 0 → bs.length ≤ 10 →
    s.inputs = bs.map Input.rxByte ++ .xportErr :: rest →
    ∃ t, runSteps (bs.length + 1) s = .next t ∧ t.rxCnt.val = bs.length ∧
      (∀ (i : Fin 10) (h : i.val < bs.length), t.rx[i] = bs[i.val]) ∧
      (∀ i : Fin 10, bs.length ≤ i.val → t.rx[i] = s.rx[i]) ∧
      t = { s with
        rx := t.rx
        rxCnt := t.rxCnt
        state := .errored
        err := .communicationError
        value := 0#32
        valueValid := false
        inputs := rest })

/-- A host read transaction (60_exceptions.md section 7) without its POLL reads, its result read off the state that would
end POLL (the model's reading, log 18), started in a state that may build a frame and answered with ten
bytes, ends Decoded with the signed payload, error code 0 and the raw response; one frame and one read request went to
the transport, and the CRC register and the flags are as they were. -/
def Obligations.ReadTransactionReturnsThePayload : Prop :=
  ∀ (s : State) (id : Byte) (addr : Half) (resp : Frame) (rest : List Input),
    s.state ≠ .sent → s.state ≠ .awaitingResponse →
    s.inputs = readTxnMacro id addr ++ (dutifulAttempt resp.toList .data ++ rest) →
    ∃ t, runSteps 16 s = .next t ∧ t.inputs = rest ∧
      readResult t = (some (s32 (framePayload resp)), .success, resp.toList) ∧
      pollEnds (statusWord t) = true ∧ t.crcOk = frameWellFormed resp ∧
      t.toTransport =
        s.toTransport ++ [.txWrite (buildFrame id 3#8 addr 0x00000002#32), .rxRequest 10] ∧
      t.crc = s.crc ∧ flagsWord t = flagsWord s

/-- A host write transaction (60_exceptions.md section 7) without its POLL reads, its result read off the state that would
end POLL (the model's reading, log 18), started in a state that may build a frame and answered with 1 to 10 bytes, returns the frame sent and error code 0, with no value. -/
def Obligations.WriteTransactionReturnsTheFrameSent : Prop :=
  ∀ (s : State) (id : Byte) (addr : Half) (data : Word) (bs : List Byte) (rest : List Input),
    s.state ≠ .sent → s.state ≠ .awaitingResponse → 0 < bs.length → bs.length ≤ 10 →
    s.inputs = writeTxnMacro id addr data ++ (dutifulAttempt bs .data ++ rest) →
    ∃ t, runSteps (bs.length + 7) s = .next t ∧ t.inputs = rest ∧
      writeResult t = (buildFrame id 6#8 addr data, .success) ∧ rawResponse t = bs ∧
      pollEnds (statusWord t) = true ∧ t.valueValid = false ∧ t.value = 0#32 ∧
      t.toTransport = s.toTransport ++ [.txWrite (buildFrame id 6#8 addr data), .rxRequest 10]

/-! The host contract (60_exceptions.md section 7). -/

/-- 60_exceptions.md R121: the host accepts exactly the integers from −2^31 to 2^32 − 1 as data, writes u32 of them, and
reports the others as ValueError; u32 is the remainder by 2^32; and what it returns for a read is the signed reading of
VALUE, from −2^31 to 2^31 − 1, where VALUE_VALID is 1, and no value where it is 0 (60_exceptions.md section 7). -/
def Obligations.HostDataConversion : Prop :=
  (∀ v : Int, -2 ^ 31 ≤ v → v ≤ 2 ^ 32 - 1 → hostData v = .ok (u32 v)) ∧
  (∀ v : Int, v < -2 ^ 31 ∨ 2 ^ 32 ≤ v → hostData v = .error .valueError) ∧
  (∀ v : Int, -2 ^ 31 ≤ v → v < 2 ^ 31 → s32 (u32 v) = v) ∧
  (∀ v : Int, u32 (2 ^ 32 + v) = u32 v ∧ ((u32 v).toNat : Int) = v % 2 ^ 32) ∧
  (∀ s : State, s.valueValid = true → (readResult s).1 = some (s32 s.value)) ∧
  (∀ s : State, s.valueValid = false → (readResult s).1 = none) ∧
  (∀ p : Word, -2 ^ 31 ≤ s32 p ∧ s32 p ≤ 2 ^ 31 - 1)

/-- The host's address conversion (60_exceptions.md section 7): a string of four hexadecimal digits, of either case, is
its value, first digit most significant; a shorter one is padded on the left with zeros; an empty string, one of more
than four characters and one with a character that is no hexadecimal digit are refused. -/
def Obligations.HostAddressConversion : Prop :=
  (∀ d₃ d₂ d₁ d₀ : Fin 16,
    ∀ c₃ ∈ hexSpellings d₃, ∀ c₂ ∈ hexSpellings d₂, ∀ c₁ ∈ hexSpellings d₁, ∀ c₀ ∈ hexSpellings d₀,
      hostAddress [c₃, c₂, c₁, c₀] =
        .ok (BitVec.ofNat 16 (4096 * d₃.val + 256 * d₂.val + 16 * d₁.val + d₀.val))) ∧
  (∀ cs : List Char, 1 ≤ cs.length → cs.length ≤ 3 → hostAddress ('0' :: cs) = hostAddress cs) ∧
  (∀ cs : List Char, (cs = [] ∨ 4 < cs.length ∨ ∃ c ∈ cs, ∀ d : Fin 16, c ∉ hexSpellings d) →
    hostAddress cs = .error .valueError) ∧
  hostAddress ['1'] = .ok 0x0001#16 ∧ hostAddress ['a', 'B', 'c', 'D'] = .ok 0xABCD#16
end

