-- ==== Sys2Proof/Laws/Bits.lean ====
section
/-!
SUPPORT. Fields of words laid end to end, and the fields of a command word and of a frame word.
-/

namespace Sys2Proof

/-- The low field of two laid end to end. -/
theorem extract_append_low {n m : Nat} (x : BitVec n) (y : BitVec m) : (x ++ y).extractLsb' 0 m = y := by
  ext i hi
  simp [BitVec.getLsbD_append, hi, BitVec.getLsbD_eq_getElem]

/-- A field above the low part is a field of the high part. -/
theorem extract_append_high {n m : Nat} (x : BitVec n) (y : BitVec m) (k l : Nat) :
    (x ++ y).extractLsb' (m + k) l = x.extractLsb' k l := by
  ext i hi
  simp only [BitVec.getElem_extractLsb', BitVec.getLsbD_append]
  rw [if_neg (by omega)]
  congr 1
  omega

/-- Two neighbouring fields laid end to end are the field they cover. -/
theorem extract_append_extract {n : Nat} (x : BitVec n) (k m l : Nat) :
    x.extractLsb' (l + m) k ++ x.extractLsb' l m = x.extractLsb' l (k + m) := by
  ext i hi
  simp only [BitVec.getElem_append, BitVec.getElem_extractLsb']
  split
  · rfl
  · congr 1
    omega

/-- The whole word as a field. -/
theorem extract_whole {n : Nat} (x : BitVec n) : x.extractLsb' 0 n = x := by simp

/-- A command word is its three fields laid end to end (30_encoding.md R54). -/
theorem commandFields_append (w : Word) : rsvdField w ++ byteField w ++ opField w = w := by
  have h1 := extract_append_extract w 16 8 8
  have h2 := extract_append_extract w 24 8 0
  simp only [Nat.zero_add, Nat.reduceAdd] at h1 h2
  exact (congrArg (· ++ w.extractLsb' 0 8) h1).trans (h2.trans (extract_whole w))

/-- The fields of a command word built from OP and BYTE (30_encoding.md R54). -/
theorem commandWord_fields (op byte : Byte) :
    opField (commandWord op byte) = op ∧ byteField (commandWord op byte) = byte ∧
      rsvdField (commandWord op byte) = 0#16 := by
  refine ⟨extract_append_low _ op, ?_, ?_⟩
  · exact (extract_append_high _ op 0 8).trans (extract_append_low _ byte)
  · exact (extract_append_high _ op 8 16).trans
      ((extract_append_high _ byte 0 16).trans (extract_whole 0#16))

/-- The fields of a frame word (30_encoding.md R59). -/
theorem frameWord_fields (id fc : Byte) (addr : Half) (payload : Word) (crc : Half) :
    (frameWord id fc addr payload crc).extractLsb' 72 8 = id ∧
      (frameWord id fc addr payload crc).extractLsb' 64 8 = fc ∧
      (frameWord id fc addr payload crc).extractLsb' 48 16 = addr ∧
      (frameWord id fc addr payload crc).extractLsb' 16 32 = payload ∧
      (frameWord id fc addr payload crc).extractLsb' 0 16 = crc := by
  refine ⟨?_, ?_, ?_, ?_, ?_⟩
  · exact (extract_append_high _ crc 56 8).trans ((extract_append_high _ payload 24 8).trans
      ((extract_append_high _ addr 8 8).trans ((extract_append_high id fc 0 8).trans (extract_whole id))))
  · exact (extract_append_high _ crc 48 8).trans ((extract_append_high _ payload 16 8).trans
      ((extract_append_high _ addr 0 8).trans (extract_append_low id fc)))
  · exact (extract_append_high _ crc 32 16).trans ((extract_append_high _ payload 0 16).trans
      (extract_append_low _ addr))
  · exact (extract_append_high _ crc 0 32).trans (extract_append_low _ payload)
  · exact extract_append_low _ crc

/-- A frame word is its five fields laid end to end (30_encoding.md R59). -/
theorem frameFields_append (f : FrameWord) :
    frameWord (f.extractLsb' 72 8) (f.extractLsb' 64 8) (f.extractLsb' 48 16) (f.extractLsb' 16 32)
      (f.extractLsb' 0 16) = f := by
  have h1 := extract_append_extract f 8 8 64
  have h2 := extract_append_extract f 16 16 48
  have h3 := extract_append_extract f 32 32 16
  have h4 := extract_append_extract f 64 16 0
  simp only [Nat.zero_add, Nat.reduceAdd] at h1 h2 h3 h4
  refine Eq.trans ?_ (h4.trans (extract_whole f))
  refine congrArg (· ++ f.extractLsb' 0 16) (Eq.trans ?_ h3)
  refine congrArg (· ++ f.extractLsb' 16 32) (Eq.trans ?_ h2)
  exact congrArg (· ++ f.extractLsb' 48 16) h1

end Sys2Proof
end

