-- ==== Sys2Proof/Laws/Host.lean ====
section
/-!
SUPPORT. What the host's reading of hexadecimal text can do (60_exceptions.md R120).
-/

namespace Sys2Proof.Machine

/-- Each spelling of a digit reads as the digit. -/
theorem hexDigit_of_spelling (d : Fin 16) : ∀ c ∈ hexSpellings d, hexDigit c = some d.val := by
  fin_cases d <;> simp [hexSpellings] <;> decide

/-- A character that reads as a digit is a spelling of one. -/
theorem spelling_of_hexDigit {c : Char} {n : Nat} (h : hexDigit c = some n) : ∃ d : Fin 16, c ∈ hexSpellings d := by
  have small : c.toNat < 128 := by
    unfold hexDigit at h
    split at h
    · omega
    · split at h
      · omega
      · split at h
        · omega
        · cases h
  have table : ∀ m : Fin 128, (hexDigit (Char.ofNat m)).isSome → ∃ d : Fin 16, Char.ofNat m ∈ hexSpellings d := by
    decide +kernel
  have hc := table ⟨c.toNat, small⟩
  simp only [Char.ofNat_toNat, h] at hc
  exact hc rfl

/-- One character that is no digit spoils the whole text. -/
theorem hexValue_eq_none {cs : List Char} {c : Char} (hc : c ∈ cs) (hn : hexDigit c = none) (acc : Nat) :
    hexValue acc cs = none := by
  induction cs generalizing acc with
  | nil => cases hc
  | cons d ds ih =>
    rw [hexValue]
    obtain rfl | hc := List.mem_cons.1 hc
    · rw [hn, Option.bind_none]
    · cases hexDigit d with
      | none => rfl
      | some x => exact ih hc _

end Sys2Proof.Machine
end

