-- ==== Sys2Proof/Laws/State.lean ====
section
/-!
SUPPORT. One lemma per field per named update of State, true by `rfl`, so that no later proof unfolds a record update.
-/

namespace Sys2Proof.Machine

variable (s : State)

@[simp] theorem raiseCmdError_argId : (raiseCmdError s).argId = s.argId := rfl
@[simp] theorem raiseCmdError_argAddr : (raiseCmdError s).argAddr = s.argAddr := rfl
@[simp] theorem raiseCmdError_argData : (raiseCmdError s).argData = s.argData := rfl
@[simp] theorem raiseCmdError_crc : (raiseCmdError s).crc = s.crc := rfl
@[simp] theorem raiseCmdError_tx : (raiseCmdError s).tx = s.tx := rfl
@[simp] theorem raiseCmdError_rx : (raiseCmdError s).rx = s.rx := rfl
@[simp] theorem raiseCmdError_rxCnt : (raiseCmdError s).rxCnt = s.rxCnt := rfl
@[simp] theorem raiseCmdError_state : (raiseCmdError s).state = s.state := rfl
@[simp] theorem raiseCmdError_err : (raiseCmdError s).err = s.err := rfl
@[simp] theorem raiseCmdError_kind : (raiseCmdError s).kind = s.kind := rfl
@[simp] theorem raiseCmdError_crcOk : (raiseCmdError s).crcOk = s.crcOk := rfl
@[simp] theorem raiseCmdError_valueValid : (raiseCmdError s).valueValid = s.valueValid := rfl
@[simp] theorem raiseCmdError_value : (raiseCmdError s).value = s.value := rfl
@[simp] theorem raiseCmdError_cmdErr : (raiseCmdError s).cmdErr = true := rfl
@[simp] theorem raiseCmdError_rxOverrun : (raiseCmdError s).rxOverrun = s.rxOverrun := rfl
@[simp] theorem raiseCmdError_stray : (raiseCmdError s).stray = s.stray := rfl
@[simp] theorem raiseCmdError_inputs : (raiseCmdError s).inputs = s.inputs := rfl
@[simp] theorem raiseCmdError_toTransport : (raiseCmdError s).toTransport = s.toTransport := rfl
@[simp] theorem raiseCmdError_toHost : (raiseCmdError s).toHost = s.toHost := rfl

@[simp] theorem raiseOverrun_argId : (raiseOverrun s).argId = s.argId := rfl
@[simp] theorem raiseOverrun_argAddr : (raiseOverrun s).argAddr = s.argAddr := rfl
@[simp] theorem raiseOverrun_argData : (raiseOverrun s).argData = s.argData := rfl
@[simp] theorem raiseOverrun_crc : (raiseOverrun s).crc = s.crc := rfl
@[simp] theorem raiseOverrun_tx : (raiseOverrun s).tx = s.tx := rfl
@[simp] theorem raiseOverrun_rx : (raiseOverrun s).rx = s.rx := rfl
@[simp] theorem raiseOverrun_rxCnt : (raiseOverrun s).rxCnt = s.rxCnt := rfl
@[simp] theorem raiseOverrun_state : (raiseOverrun s).state = s.state := rfl
@[simp] theorem raiseOverrun_err : (raiseOverrun s).err = s.err := rfl
@[simp] theorem raiseOverrun_kind : (raiseOverrun s).kind = s.kind := rfl
@[simp] theorem raiseOverrun_crcOk : (raiseOverrun s).crcOk = s.crcOk := rfl
@[simp] theorem raiseOverrun_valueValid : (raiseOverrun s).valueValid = s.valueValid := rfl
@[simp] theorem raiseOverrun_value : (raiseOverrun s).value = s.value := rfl
@[simp] theorem raiseOverrun_cmdErr : (raiseOverrun s).cmdErr = s.cmdErr := rfl
@[simp] theorem raiseOverrun_rxOverrun : (raiseOverrun s).rxOverrun = true := rfl
@[simp] theorem raiseOverrun_stray : (raiseOverrun s).stray = s.stray := rfl
@[simp] theorem raiseOverrun_inputs : (raiseOverrun s).inputs = s.inputs := rfl
@[simp] theorem raiseOverrun_toTransport : (raiseOverrun s).toTransport = s.toTransport := rfl
@[simp] theorem raiseOverrun_toHost : (raiseOverrun s).toHost = s.toHost := rfl

@[simp] theorem raiseStray_argId : (raiseStray s).argId = s.argId := rfl
@[simp] theorem raiseStray_argAddr : (raiseStray s).argAddr = s.argAddr := rfl
@[simp] theorem raiseStray_argData : (raiseStray s).argData = s.argData := rfl
@[simp] theorem raiseStray_crc : (raiseStray s).crc = s.crc := rfl
@[simp] theorem raiseStray_tx : (raiseStray s).tx = s.tx := rfl
@[simp] theorem raiseStray_rx : (raiseStray s).rx = s.rx := rfl
@[simp] theorem raiseStray_rxCnt : (raiseStray s).rxCnt = s.rxCnt := rfl
@[simp] theorem raiseStray_state : (raiseStray s).state = s.state := rfl
@[simp] theorem raiseStray_err : (raiseStray s).err = s.err := rfl
@[simp] theorem raiseStray_kind : (raiseStray s).kind = s.kind := rfl
@[simp] theorem raiseStray_crcOk : (raiseStray s).crcOk = s.crcOk := rfl
@[simp] theorem raiseStray_valueValid : (raiseStray s).valueValid = s.valueValid := rfl
@[simp] theorem raiseStray_value : (raiseStray s).value = s.value := rfl
@[simp] theorem raiseStray_cmdErr : (raiseStray s).cmdErr = s.cmdErr := rfl
@[simp] theorem raiseStray_rxOverrun : (raiseStray s).rxOverrun = s.rxOverrun := rfl
@[simp] theorem raiseStray_stray : (raiseStray s).stray = true := rfl
@[simp] theorem raiseStray_inputs : (raiseStray s).inputs = s.inputs := rfl
@[simp] theorem raiseStray_toTransport : (raiseStray s).toTransport = s.toTransport := rfl
@[simp] theorem raiseStray_toHost : (raiseStray s).toHost = s.toHost := rfl

@[simp] theorem clearFlags_argId (v : Word) : (clearFlags v s).argId = s.argId := rfl
@[simp] theorem clearFlags_argAddr (v : Word) : (clearFlags v s).argAddr = s.argAddr := rfl
@[simp] theorem clearFlags_argData (v : Word) : (clearFlags v s).argData = s.argData := rfl
@[simp] theorem clearFlags_crc (v : Word) : (clearFlags v s).crc = s.crc := rfl
@[simp] theorem clearFlags_tx (v : Word) : (clearFlags v s).tx = s.tx := rfl
@[simp] theorem clearFlags_rx (v : Word) : (clearFlags v s).rx = s.rx := rfl
@[simp] theorem clearFlags_rxCnt (v : Word) : (clearFlags v s).rxCnt = s.rxCnt := rfl
@[simp] theorem clearFlags_state (v : Word) : (clearFlags v s).state = s.state := rfl
@[simp] theorem clearFlags_err (v : Word) : (clearFlags v s).err = s.err := rfl
@[simp] theorem clearFlags_kind (v : Word) : (clearFlags v s).kind = s.kind := rfl
@[simp] theorem clearFlags_crcOk (v : Word) : (clearFlags v s).crcOk = s.crcOk := rfl
@[simp] theorem clearFlags_valueValid (v : Word) : (clearFlags v s).valueValid = s.valueValid := rfl
@[simp] theorem clearFlags_value (v : Word) : (clearFlags v s).value = s.value := rfl
@[simp] theorem clearFlags_cmdErr (v : Word) : (clearFlags v s).cmdErr = (s.cmdErr && !v.getLsbD 0) := rfl
@[simp] theorem clearFlags_rxOverrun (v : Word) : (clearFlags v s).rxOverrun = (s.rxOverrun && !v.getLsbD 1) := rfl
@[simp] theorem clearFlags_stray (v : Word) : (clearFlags v s).stray = (s.stray && !v.getLsbD 2) := rfl
@[simp] theorem clearFlags_inputs (v : Word) : (clearFlags v s).inputs = s.inputs := rfl
@[simp] theorem clearFlags_toTransport (v : Word) : (clearFlags v s).toTransport = s.toTransport := rfl
@[simp] theorem clearFlags_toHost (v : Word) : (clearFlags v s).toHost = s.toHost := rfl

@[simp] theorem encCommon_argId : (encCommon s).argId = s.argId := rfl
@[simp] theorem encCommon_argAddr : (encCommon s).argAddr = s.argAddr := rfl
@[simp] theorem encCommon_argData : (encCommon s).argData = s.argData := rfl
@[simp] theorem encCommon_crc : (encCommon s).crc = s.crc := rfl
@[simp] theorem encCommon_tx : (encCommon s).tx = s.tx := rfl
@[simp] theorem encCommon_rx : (encCommon s).rx = zeroFrame := rfl
@[simp] theorem encCommon_rxCnt : (encCommon s).rxCnt = 0 := rfl
@[simp] theorem encCommon_state : (encCommon s).state = .frameBuilt := rfl
@[simp] theorem encCommon_err : (encCommon s).err = .success := rfl
@[simp] theorem encCommon_kind : (encCommon s).kind = s.kind := rfl
@[simp] theorem encCommon_crcOk : (encCommon s).crcOk = false := rfl
@[simp] theorem encCommon_valueValid : (encCommon s).valueValid = false := rfl
@[simp] theorem encCommon_value : (encCommon s).value = 0#32 := rfl
@[simp] theorem encCommon_cmdErr : (encCommon s).cmdErr = s.cmdErr := rfl
@[simp] theorem encCommon_rxOverrun : (encCommon s).rxOverrun = s.rxOverrun := rfl
@[simp] theorem encCommon_stray : (encCommon s).stray = s.stray := rfl
@[simp] theorem encCommon_inputs : (encCommon s).inputs = s.inputs := rfl
@[simp] theorem encCommon_toTransport : (encCommon s).toTransport = s.toTransport := rfl
@[simp] theorem encCommon_toHost : (encCommon s).toHost = s.toHost := rfl

@[simp] theorem emit_argId (m : TransportMsg) : (emit m s).argId = s.argId := rfl
@[simp] theorem emit_argAddr (m : TransportMsg) : (emit m s).argAddr = s.argAddr := rfl
@[simp] theorem emit_argData (m : TransportMsg) : (emit m s).argData = s.argData := rfl
@[simp] theorem emit_crc (m : TransportMsg) : (emit m s).crc = s.crc := rfl
@[simp] theorem emit_tx (m : TransportMsg) : (emit m s).tx = s.tx := rfl
@[simp] theorem emit_rx (m : TransportMsg) : (emit m s).rx = s.rx := rfl
@[simp] theorem emit_rxCnt (m : TransportMsg) : (emit m s).rxCnt = s.rxCnt := rfl
@[simp] theorem emit_state (m : TransportMsg) : (emit m s).state = s.state := rfl
@[simp] theorem emit_err (m : TransportMsg) : (emit m s).err = s.err := rfl
@[simp] theorem emit_kind (m : TransportMsg) : (emit m s).kind = s.kind := rfl
@[simp] theorem emit_crcOk (m : TransportMsg) : (emit m s).crcOk = s.crcOk := rfl
@[simp] theorem emit_valueValid (m : TransportMsg) : (emit m s).valueValid = s.valueValid := rfl
@[simp] theorem emit_value (m : TransportMsg) : (emit m s).value = s.value := rfl
@[simp] theorem emit_cmdErr (m : TransportMsg) : (emit m s).cmdErr = s.cmdErr := rfl
@[simp] theorem emit_rxOverrun (m : TransportMsg) : (emit m s).rxOverrun = s.rxOverrun := rfl
@[simp] theorem emit_stray (m : TransportMsg) : (emit m s).stray = s.stray := rfl
@[simp] theorem emit_inputs (m : TransportMsg) : (emit m s).inputs = s.inputs := rfl
@[simp] theorem emit_toTransport (m : TransportMsg) : (emit m s).toTransport = s.toTransport ++ [m] := rfl
@[simp] theorem emit_toHost (m : TransportMsg) : (emit m s).toHost = s.toHost := rfl

@[simp] theorem enterErrored_argId (e : ErrCode) : (enterErrored e s).argId = s.argId := rfl
@[simp] theorem enterErrored_argAddr (e : ErrCode) : (enterErrored e s).argAddr = s.argAddr := rfl
@[simp] theorem enterErrored_argData (e : ErrCode) : (enterErrored e s).argData = s.argData := rfl
@[simp] theorem enterErrored_crc (e : ErrCode) : (enterErrored e s).crc = s.crc := rfl
@[simp] theorem enterErrored_tx (e : ErrCode) : (enterErrored e s).tx = s.tx := rfl
@[simp] theorem enterErrored_rx (e : ErrCode) : (enterErrored e s).rx = s.rx := rfl
@[simp] theorem enterErrored_rxCnt (e : ErrCode) : (enterErrored e s).rxCnt = s.rxCnt := rfl
@[simp] theorem enterErrored_state (e : ErrCode) : (enterErrored e s).state = .errored := rfl
@[simp] theorem enterErrored_err (e : ErrCode) : (enterErrored e s).err = e := rfl
@[simp] theorem enterErrored_kind (e : ErrCode) : (enterErrored e s).kind = s.kind := rfl
@[simp] theorem enterErrored_crcOk (e : ErrCode) : (enterErrored e s).crcOk = s.crcOk := rfl
@[simp] theorem enterErrored_valueValid (e : ErrCode) : (enterErrored e s).valueValid = false := rfl
@[simp] theorem enterErrored_value (e : ErrCode) : (enterErrored e s).value = 0#32 := rfl
@[simp] theorem enterErrored_cmdErr (e : ErrCode) : (enterErrored e s).cmdErr = s.cmdErr := rfl
@[simp] theorem enterErrored_rxOverrun (e : ErrCode) : (enterErrored e s).rxOverrun = s.rxOverrun := rfl
@[simp] theorem enterErrored_stray (e : ErrCode) : (enterErrored e s).stray = s.stray := rfl
@[simp] theorem enterErrored_inputs (e : ErrCode) : (enterErrored e s).inputs = s.inputs := rfl
@[simp] theorem enterErrored_toTransport (e : ErrCode) : (enterErrored e s).toTransport = s.toTransport := rfl
@[simp] theorem enterErrored_toHost (e : ErrCode) : (enterErrored e s).toHost = s.toHost := rfl

@[simp] theorem returnToHost_argId (v : Word) : (returnToHost v s).argId = s.argId := rfl
@[simp] theorem returnToHost_argAddr (v : Word) : (returnToHost v s).argAddr = s.argAddr := rfl
@[simp] theorem returnToHost_argData (v : Word) : (returnToHost v s).argData = s.argData := rfl
@[simp] theorem returnToHost_crc (v : Word) : (returnToHost v s).crc = s.crc := rfl
@[simp] theorem returnToHost_tx (v : Word) : (returnToHost v s).tx = s.tx := rfl
@[simp] theorem returnToHost_rx (v : Word) : (returnToHost v s).rx = s.rx := rfl
@[simp] theorem returnToHost_rxCnt (v : Word) : (returnToHost v s).rxCnt = s.rxCnt := rfl
@[simp] theorem returnToHost_state (v : Word) : (returnToHost v s).state = s.state := rfl
@[simp] theorem returnToHost_err (v : Word) : (returnToHost v s).err = s.err := rfl
@[simp] theorem returnToHost_kind (v : Word) : (returnToHost v s).kind = s.kind := rfl
@[simp] theorem returnToHost_crcOk (v : Word) : (returnToHost v s).crcOk = s.crcOk := rfl
@[simp] theorem returnToHost_valueValid (v : Word) : (returnToHost v s).valueValid = s.valueValid := rfl
@[simp] theorem returnToHost_value (v : Word) : (returnToHost v s).value = s.value := rfl
@[simp] theorem returnToHost_cmdErr (v : Word) : (returnToHost v s).cmdErr = s.cmdErr := rfl
@[simp] theorem returnToHost_rxOverrun (v : Word) : (returnToHost v s).rxOverrun = s.rxOverrun := rfl
@[simp] theorem returnToHost_stray (v : Word) : (returnToHost v s).stray = s.stray := rfl
@[simp] theorem returnToHost_inputs (v : Word) : (returnToHost v s).inputs = s.inputs := rfl
@[simp] theorem returnToHost_toTransport (v : Word) : (returnToHost v s).toTransport = s.toTransport := rfl
@[simp] theorem returnToHost_toHost (v : Word) : (returnToHost v s).toHost = s.toHost ++ [v] := rfl

@[simp] theorem assertReset_argId : (assertReset s).argId = State.reset.argId := rfl
@[simp] theorem assertReset_argAddr : (assertReset s).argAddr = State.reset.argAddr := rfl
@[simp] theorem assertReset_argData : (assertReset s).argData = State.reset.argData := rfl
@[simp] theorem assertReset_crc : (assertReset s).crc = State.reset.crc := rfl
@[simp] theorem assertReset_tx : (assertReset s).tx = State.reset.tx := rfl
@[simp] theorem assertReset_rx : (assertReset s).rx = State.reset.rx := rfl
@[simp] theorem assertReset_rxCnt : (assertReset s).rxCnt = State.reset.rxCnt := rfl
@[simp] theorem assertReset_state : (assertReset s).state = State.reset.state := rfl
@[simp] theorem assertReset_err : (assertReset s).err = State.reset.err := rfl
@[simp] theorem assertReset_kind : (assertReset s).kind = State.reset.kind := rfl
@[simp] theorem assertReset_crcOk : (assertReset s).crcOk = State.reset.crcOk := rfl
@[simp] theorem assertReset_valueValid : (assertReset s).valueValid = State.reset.valueValid := rfl
@[simp] theorem assertReset_value : (assertReset s).value = State.reset.value := rfl
@[simp] theorem assertReset_cmdErr : (assertReset s).cmdErr = State.reset.cmdErr := rfl
@[simp] theorem assertReset_rxOverrun : (assertReset s).rxOverrun = State.reset.rxOverrun := rfl
@[simp] theorem assertReset_stray : (assertReset s).stray = State.reset.stray := rfl
@[simp] theorem assertReset_inputs : (assertReset s).inputs = s.inputs := rfl
@[simp] theorem assertReset_toTransport : (assertReset s).toTransport = s.toTransport := rfl
@[simp] theorem assertReset_toHost : (assertReset s).toHost = s.toHost := rfl

/-! Entry to Decoded changes STATE, ERR, VALUE and VALUE_VALID only, the last two for a read only. -/

@[simp] theorem enterDecoded_argId : (enterDecoded s).argId = s.argId := by
  unfold enterDecoded; split <;> rfl
@[simp] theorem enterDecoded_argAddr : (enterDecoded s).argAddr = s.argAddr := by
  unfold enterDecoded; split <;> rfl
@[simp] theorem enterDecoded_argData : (enterDecoded s).argData = s.argData := by
  unfold enterDecoded; split <;> rfl
@[simp] theorem enterDecoded_crc : (enterDecoded s).crc = s.crc := by
  unfold enterDecoded; split <;> rfl
@[simp] theorem enterDecoded_tx : (enterDecoded s).tx = s.tx := by
  unfold enterDecoded; split <;> rfl
@[simp] theorem enterDecoded_rx : (enterDecoded s).rx = s.rx := by
  unfold enterDecoded; split <;> rfl
@[simp] theorem enterDecoded_rxCnt : (enterDecoded s).rxCnt = s.rxCnt := by
  unfold enterDecoded; split <;> rfl
@[simp] theorem enterDecoded_state : (enterDecoded s).state = .decoded := by
  unfold enterDecoded; split <;> rfl
@[simp] theorem enterDecoded_err : (enterDecoded s).err = .success := by
  unfold enterDecoded; split <;> rfl
@[simp] theorem enterDecoded_kind : (enterDecoded s).kind = s.kind := by
  unfold enterDecoded; split <;> rfl
@[simp] theorem enterDecoded_crcOk : (enterDecoded s).crcOk = s.crcOk := by
  unfold enterDecoded; split <;> rfl
@[simp] theorem enterDecoded_cmdErr : (enterDecoded s).cmdErr = s.cmdErr := by
  unfold enterDecoded; split <;> rfl
@[simp] theorem enterDecoded_rxOverrun : (enterDecoded s).rxOverrun = s.rxOverrun := by
  unfold enterDecoded; split <;> rfl
@[simp] theorem enterDecoded_stray : (enterDecoded s).stray = s.stray := by
  unfold enterDecoded; split <;> rfl
@[simp] theorem enterDecoded_inputs : (enterDecoded s).inputs = s.inputs := by
  unfold enterDecoded; split <;> rfl
@[simp] theorem enterDecoded_toTransport : (enterDecoded s).toTransport = s.toTransport := by
  unfold enterDecoded; split <;> rfl
@[simp] theorem enterDecoded_toHost : (enterDecoded s).toHost = s.toHost := by
  unfold enterDecoded; split <;> rfl
@[simp] theorem enterDecoded_value_read (h : s.kind = .read) : (enterDecoded s).value = framePayload s.rx := by
  simp [enterDecoded, h]
@[simp] theorem enterDecoded_value_write (h : s.kind = .write) : (enterDecoded s).value = s.value := by
  simp [enterDecoded, h]
@[simp] theorem enterDecoded_valueValid_read (h : s.kind = .read) : (enterDecoded s).valueValid = true := by
  simp [enterDecoded, h]
@[simp] theorem enterDecoded_valueValid_write (h : s.kind = .write) :
    (enterDecoded s).valueValid = s.valueValid := by
  simp [enterDecoded, h]

end Sys2Proof.Machine
end

