-- ==== Sys2Proof/Laws/Ops.lean ====
section
/-!
SUPPORT. For each shared operation, one lemma that says once everything it can do.
-/

namespace Sys2Proof.Machine

/-- A transaction is in flight exactly in Sent and AwaitingResponse (41_frame_encode.md R82). -/
theorem inFlight_iff (t : TxnState) : t.inFlight = true ↔ t = .sent ∨ t = .awaitingResponse := by
  cases t <;> simp [TxnState.inFlight]

theorem not_inFlight_iff (t : TxnState) : t.inFlight = false ↔ t ≠ .sent ∧ t ≠ .awaitingResponse := by
  cases t <;> simp [TxnState.inFlight]

/-- Everything building a request can do (41_frame_encode.md R79 to R82). -/
theorem buildRequest_cases (q : ReqKind) (s : State) :
    ((s.state = .sent ∨ s.state = .awaitingResponse) ∧ buildRequest q s = raiseCmdError s) ∨
    (s.state ≠ .sent ∧ s.state ≠ .awaitingResponse ∧
      buildRequest q s =
        encCommon
          { s with tx := buildFrame s.argId q.functionCode s.argAddr (requestPayload q s), kind := q }) := by
  unfold buildRequest
  split
  · next h => exact .inl ⟨(inFlight_iff _).1 h, rfl⟩
  · next h =>
    obtain ⟨h1, h2⟩ := (not_inFlight_iff _).1 (Bool.eq_false_iff.2 h)
    exact .inr ⟨h1, h2, rfl⟩

theorem buildRequest_of_legal {q : ReqKind} {s : State} (h1 : s.state ≠ .sent) (h2 : s.state ≠ .awaitingResponse) :
    buildRequest q s =
      encCommon { s with tx := buildFrame s.argId q.functionCode s.argAddr (requestPayload q s), kind := q } := by
  obtain ⟨h, _⟩ | ⟨_, _, h⟩ := buildRequest_cases q s
  · exact absurd h (by simp [h1, h2])
  · exact h

theorem buildRequest_of_inFlight {q : ReqKind} {s : State} (h : s.state = .sent ∨ s.state = .awaitingResponse) :
    buildRequest q s = raiseCmdError s := by
  unfold buildRequest
  rw [if_pos ((inFlight_iff _).2 h)]

/-- Everything SEND can do (42_transaction.md R90). -/
theorem sendFrame_cases (s : State) :
    (s.state = .frameBuilt ∧ sendFrame s = { emit (.txWrite s.tx) s with state := .sent }) ∨
    (s.state ≠ .frameBuilt ∧ sendFrame s = raiseCmdError s) := by
  unfold sendFrame
  split
  · next h => exact .inl ⟨h, rfl⟩
  · next h => exact .inr ⟨h, rfl⟩

/-- Everything RECV can do (42_transaction.md R91). -/
theorem openRead_cases (s : State) :
    (s.state = .sent ∧
      openRead s =
        { emit (.rxRequest Config.responseLen) s with
          rx := zeroFrame, rxCnt := 0, crcOk := false, state := .awaitingResponse }) ∨
    (s.state ≠ .sent ∧ openRead s = raiseCmdError s) := by
  unfold openRead
  split
  · next h => exact .inl ⟨h, rfl⟩
  · next h => exact .inr ⟨h, rfl⟩

/-- Everything RX_BYTE can do (42_transaction.md R92, R101, R102). -/
theorem receiveByte_cases (s : State) (b : Byte) :
    (s.state = .awaitingResponse ∧ ∃ h : s.rxCnt.val < 10,
      receiveByte s b =
        { s with rx := s.rx.set s.rxCnt.val b h, rxCnt := ⟨s.rxCnt.val + 1, Nat.succ_lt_succ h⟩ }) ∨
    (s.state = .awaitingResponse ∧ s.rxCnt.val = 10 ∧ receiveByte s b = raiseOverrun s) ∨
    (s.state ≠ .awaitingResponse ∧ receiveByte s b = raiseStray s) := by
  unfold receiveByte
  split
  · next h =>
    split
    · next hlt => exact .inl ⟨h, hlt, rfl⟩
    · next hge => exact .inr (.inl ⟨h, by have := s.rxCnt.isLt; omega, rfl⟩)
  · next h => exact .inr (.inr ⟨h, rfl⟩)

theorem receiveByte_of_room {s : State} {b : Byte} (h : s.state = .awaitingResponse) (hc : s.rxCnt.val < 10) :
    receiveByte s b =
      { s with rx := s.rx.set s.rxCnt.val b hc, rxCnt := ⟨s.rxCnt.val + 1, Nat.succ_lt_succ hc⟩ } := by
  unfold receiveByte
  rw [if_pos h, dif_pos hc]

theorem receiveByte_of_full {s : State} {b : Byte} (h : s.state = .awaitingResponse) (hc : s.rxCnt.val = 10) :
    receiveByte s b = raiseOverrun s := by
  unfold receiveByte
  rw [if_pos h, dif_neg (by omega)]

theorem receiveByte_of_not_awaiting {s : State} {b : Byte} (h : s.state ≠ .awaitingResponse) :
    receiveByte s b = raiseStray s := by
  unfold receiveByte
  rw [if_neg h]

/-- RX_BYTE changes RX, RXCNT, RX_OVERRUN and STRAY only. -/
theorem receiveByte_frame (s : State) (b : Byte) :
    { receiveByte s b with rx := s.rx, rxCnt := s.rxCnt, rxOverrun := s.rxOverrun, stray := s.stray } = s := by
  obtain ⟨_, _, h⟩ | ⟨_, _, h⟩ | ⟨_, h⟩ := receiveByte_cases s b <;> rw [h] <;> rfl

@[simp] theorem receiveByte_state (s : State) (b : Byte) : (receiveByte s b).state = s.state := by
  obtain ⟨_, _, h⟩ | ⟨_, _, h⟩ | ⟨_, h⟩ := receiveByte_cases s b <;> rw [h] <;> rfl

@[simp] theorem receiveByte_kind (s : State) (b : Byte) : (receiveByte s b).kind = s.kind := by
  obtain ⟨_, _, h⟩ | ⟨_, _, h⟩ | ⟨_, h⟩ := receiveByte_cases s b <;> rw [h] <;> rfl

/-- Everything the end of a transaction with an outcome code can do (42_transaction.md R93). -/
theorem settleOutcome_cases (e : ErrCode) (s : State) :
    (e = .success ∧ settleOutcome e s = enterDecoded s) ∨ (e ≠ .success ∧ settleOutcome e s = enterErrored e s) := by
  unfold settleOutcome
  split
  · next h => exact .inl ⟨h, rfl⟩
  · next h => exact .inr ⟨h, rfl⟩

/-- Everything RX_END can do (42_transaction.md R93, R101). -/
theorem endRead_cases (k : RxEndKind) (s : State) :
    (s.state = .awaitingResponse ∧
      endRead k s =
        settleOutcome (classify s.kind k s.rxCnt.val) { s with crcOk := crcMatch s.rxCnt.val s.rx }) ∨
    (s.state ≠ .awaitingResponse ∧ endRead k s = raiseStray s) := by
  unfold endRead
  split
  · next h => exact .inl ⟨h, rfl⟩
  · next h => exact .inr ⟨h, rfl⟩

theorem endRead_of_awaiting {k : RxEndKind} {s : State} (h : s.state = .awaitingResponse) :
    endRead k s =
      settleOutcome (classify s.kind k s.rxCnt.val) { s with crcOk := crcMatch s.rxCnt.val s.rx } := by
  unfold endRead
  rw [if_pos h]

theorem endRead_of_not_awaiting {k : RxEndKind} {s : State} (h : s.state ≠ .awaitingResponse) :
    endRead k s = raiseStray s := by
  unfold endRead
  rw [if_neg h]

theorem settleOutcome_success (s : State) : settleOutcome .success s = enterDecoded s := rfl

theorem settleOutcome_error {e : ErrCode} (h : e ≠ .success) (s : State) :
    settleOutcome e s = enterErrored e s := by
  unfold settleOutcome
  rw [if_neg h]

theorem enterDecoded_of_read {s : State} (h : s.kind = .read) :
    enterDecoded s =
      { s with state := .decoded, err := .success, value := framePayload s.rx, valueValid := true } := by
  simp only [enterDecoded, h]

theorem enterDecoded_of_write {s : State} (h : s.kind = .write) :
    enterDecoded s = { s with state := .decoded, err := .success } := by
  simp only [enterDecoded, h]

/-- Everything XPORT_ERR can do (42_transaction.md R94, R101). -/
theorem transportException_cases (s : State) :
    ((s.state = .sent ∨ s.state = .awaitingResponse) ∧
      transportException s = enterErrored .communicationError s) ∨
    (s.state ≠ .sent ∧ s.state ≠ .awaitingResponse ∧ transportException s = raiseStray s) := by
  unfold transportException
  split
  · next h => exact .inl ⟨(inFlight_iff _).1 h, rfl⟩
  · next h =>
    obtain ⟨h1, h2⟩ := (not_inFlight_iff _).1 (Bool.eq_false_iff.2 h)
    exact .inr ⟨h1, h2, rfl⟩

/-- A classification is never ValueError nor CommunicationError (42_transaction.md R95, R96, R107). -/
theorem classify_mem (q : ReqKind) (k : RxEndKind) (n : Nat) :
    classify q k n = .success ∨ classify q k n = .indexError ∨ classify q k n = .timeout := by
  cases q <;> simp only [classify, classifyRead, classifyWrite] <;> split <;> (try split) <;> simp

/-- A read is a success exactly when the transport returned ten bytes (42_transaction.md R95). -/
theorem classifyRead_success_iff (k : RxEndKind) (n : Nat) :
    classifyRead k n = .success ↔ k = .data ∧ 10 ≤ n := by
  cases k <;> unfold classifyRead <;> split <;> simp_all

/-- A write is a success exactly when the transport returned a byte (42_transaction.md R96). -/
theorem classifyWrite_success_iff (k : RxEndKind) (n : Nat) :
    classifyWrite k n = .success ↔ k = .data ∧ 1 ≤ n := by
  cases k <;> unfold classifyWrite <;> split <;> simp_all
  omega

/-- Everything a host write of a register other than CMD can do (10_state.md R16 to R18, R30, R37). -/
theorem writeReg_cases (r : Reg) (v : Word) (s : State) :
    writeReg r v s = s ∨
    (r = .flags ∧ writeReg r v s = clearFlags v s) ∨
    (r = .argId ∧ writeReg r v s = { s with argId := v.setWidth 8 }) ∨
    (r = .argAddr ∧ writeReg r v s = { s with argAddr := v.setWidth 16 }) ∨
    (r = .argData ∧ writeReg r v s = { s with argData := v }) := by
  cases r <;> simp [writeReg]

/-- Everything a host read can do (20_memory.md R41, R42). -/
theorem hostRead_cases (off : Offset) (width : Nat) (s : State) :
    (∃ r, accessed off width = some r ∧ hostRead off width s = .next (returnToHost (readReg r s) s)) ∨
    (accessed off width = none ∧ hostRead off width s = .fault (.busFault off)) := by
  unfold hostRead
  cases h : accessed off width with
  | none => exact .inr ⟨rfl, rfl⟩
  | some r => exact .inl ⟨r, rfl, rfl⟩

/-- Everything a host write of a register other than CMD can do, faults included (20_memory.md R41, R42). -/
theorem hostWrite_cases (off : Offset) (width : Nat) (v : Word) (s : State) :
    (∃ r, accessed off width = some r ∧ hostWrite off width v s = .next (writeReg r v s)) ∨
    (accessed off width = none ∧ hostWrite off width v s = .fault (.busFault off)) := by
  unfold hostWrite
  cases h : accessed off width with
  | none => exact .inr ⟨rfl, rfl⟩
  | some r => exact .inl ⟨r, rfl, rfl⟩

/-- An access that reaches a register is 32 bits wide at that register's offset (10_state.md R32, 20_memory.md R41). -/
theorem accessed_eq_some {off : Offset} {width : Nat} {r : Reg} (h : accessed off width = some r) :
    width = 4 ∧ r.offset = off := by
  have key : ∀ off : Offset, (accessed off 4).all (fun r => r.offset == off) = true := by decide +kernel
  have hw : width = 4 := by
    unfold accessed at h
    split at h
    · next hc => exact hc.1
    · cases h
  subst hw
  have hk := key off
  rw [h] at hk
  exact ⟨rfl, by simpa using hk⟩

theorem nextInput_nil {s : State} (h : s.inputs = []) : nextInput s = none := by
  simp [nextInput, h]

theorem nextInput_cons {s : State} {x : Input} {rest : List Input} (h : s.inputs = x :: rest) :
    nextInput s = some (x, { s with inputs := rest }) := by
  simp [nextInput, h]

/-- Everything a command word's decoding can give (30_encoding.md R55 to R58). -/
theorem decodeCommand_ok {w : Word} {i : Instr} (h : decodeCommand w = .ok i) :
    rsvdField w = 0#16 ∧
      ((opField w = 0x02#8 ∧ i = .crcUpdate (byteField w)) ∨
        (opField w ≠ 0x02#8 ∧ byteField w = 0#8 ∧ plainCommand (opField w) = some i)) := by
  unfold decodeCommand at h
  split at h
  · cases h
  next hr =>
    refine ⟨not_not.1 hr, ?_⟩
    split at h
    · next ho => exact .inl ⟨ho, (Except.ok.inj h).symm⟩
    · next ho =>
      split at h
      · cases h
      · next j hj =>
        split at h
        · next hb =>
          obtain rfl := Except.ok.inj h
          exact .inr ⟨ho, hb, hj⟩
        · cases h

end Sys2Proof.Machine
end

