-- ==== Sys2Proof/Laws/PerInstr.lean ====
section
/-!
SUPPORT. Per instruction: its encoded form lies in the row of spec/opcode_table.json that bears its mnemonic.
-/

namespace Sys2Proof.Laws.RowMatch

open Sys2Proof

/-- The encoding of an instruction comes on its row's channel and meets its row's match and mask. -/
def Statement (i : Instr) : Prop :=
  match encode i with
  | .command w => ∃ r ∈ commandRows, r.mnemonic = i.mnemonic ∧ r.selects w = true
  | .request f =>
    (i.mnemonic = "READ_REQ" ∧ f &&& 0x00FF0000FFFFFFFF0000#80 = 0x00030000000000020000#80) ∨
    (i.mnemonic = "WRITE_REQ" ∧ f &&& 0x00FF0000000000000000#80 = 0x00060000000000000000#80)
  | .response f => i.mnemonic = "RESPONSE" ∧ f &&& 0#80 = 0#80
  | .rxByte _ => i.mnemonic = "RX_BYTE"
  | .rxEnd _ => i.mnemonic = "RX_END"
  | .xportErr => i.mnemonic = "XPORT_ERR"

theorem nop : Statement .nop :=
  ⟨⟨"NOP", 0x00000000#32, 0xFFFFFFFF#32⟩, by decide, rfl, by decide⟩

theorem crcInit : Statement .crcInit :=
  ⟨⟨"CRC_INIT", 0x00000001#32, 0xFFFFFFFF#32⟩, by decide, rfl, by decide⟩

theorem crcUpdate (b : Byte) : Statement (.crcUpdate b) := by
  refine ⟨⟨"CRC_UPDATE", 0x00000002#32, 0xFFFF00FF#32⟩, by decide, rfl, ?_⟩
  have h : ∀ b : Byte, commandWord 0x02#8 b &&& 0xFFFF00FF#32 = 0x00000002#32 := by decide +kernel
  simpa [CommandRow.selects] using h b

theorem encRead : Statement .encRead :=
  ⟨⟨"ENC_READ", 0x00000003#32, 0xFFFFFFFF#32⟩, by decide, rfl, by decide⟩

theorem encWrite : Statement .encWrite :=
  ⟨⟨"ENC_WRITE", 0x00000006#32, 0xFFFFFFFF#32⟩, by decide, rfl, by decide⟩

theorem send : Statement .send :=
  ⟨⟨"SEND", 0x00000010#32, 0xFFFFFFFF#32⟩, by decide, rfl, by decide⟩

theorem recv : Statement .recv :=
  ⟨⟨"RECV", 0x00000011#32, 0xFFFFFFFF#32⟩, by decide, rfl, by decide⟩

/-- Masking a frame word masks each of its fields. -/
theorem frameWord_and (id fc : Byte) (addr : Half) (p : Word) (crc : Half)
    (id' fc' : Byte) (addr' : Half) (p' : Word) (crc' : Half) :
    frameWord id fc addr p crc &&& frameWord id' fc' addr' p' crc' =
      frameWord (id &&& id') (fc &&& fc') (addr &&& addr') (p &&& p') (crc &&& crc') := by
  change (id ++ fc ++ addr ++ p ++ crc : BitVec (8 + 8 + 16 + 32 + 16)) &&& (id' ++ fc' ++ addr' ++ p' ++ crc') = _
  simp only [BitVec.and_append]
  rfl

theorem readReq (id : Byte) (addr : Half) (crc : Half) : Statement (.readReq id addr crc) := by
  refine .inl ⟨rfl, ?_⟩
  have hm : (0x00FF0000FFFFFFFF0000#80 : FrameWord) = frameWord 0#8 0xFF#8 0#16 0xFFFFFFFF#32 0#16 := by decide
  rw [hm, frameWord_and]
  simp only [BitVec.and_zero, Config.fcRead, Config.readLenIndicator]
  decide

theorem writeReq (id : Byte) (addr : Half) (data : Word) (crc : Half) :
    Statement (.writeReq id addr data crc) := by
  refine .inr ⟨rfl, ?_⟩
  have hm : (0x00FF0000000000000000#80 : FrameWord) = frameWord 0#8 0xFF#8 0#16 0#32 0#16 := by decide
  rw [hm, frameWord_and]
  simp only [BitVec.and_zero, Config.fcWrite]
  decide

theorem response (header : Word) (payload : Word) (crc : Half) : Statement (.response header payload crc) :=
  ⟨rfl, BitVec.and_zero⟩

theorem rxByte (b : Byte) : Statement (.rxByte b) := rfl

theorem rxEnd (k : RxEndKind) : Statement (.rxEnd k) := rfl

theorem xportErr : Statement .xportErr := rfl

end Sys2Proof.Laws.RowMatch
end

