-- ==== Sys2Proof/Laws/Step.lean ====
section
/-!
SUPPORT. What one step can do, said once.
-/

namespace Sys2Proof.Machine

/-- The input that presents an encoded form holds that form. -/
@[simp] theorem encoded_presenting (e : Encoded) : (Input.presenting e).encoded = some e := by
  cases e <;> rfl

theorem performInput_of_encoded {x : Input} {e : Encoded} (h : x.encoded = some e) (s : State) :
    performInput x s = performEncoded e s := by
  simp [performInput, h]

theorem performInput_of_plain {x : Input} (h : x.encoded = none) (s : State) :
    performInput x s = performPlain x s := by
  simp [performInput, h]

theorem performEncoded_ok {e : Encoded} {i : Instr} (h : decode e = .ok i) (s : State) :
    performEncoded e s = exec i s := by
  simp [performEncoded, h]

theorem performEncoded_error {e : Encoded} {r : DecodeError} (h : decode e = .error r) (s : State) :
    performEncoded e s = rejected e s := by
  simp [performEncoded, h]

/-- A step with nothing pending leaves the state. -/
theorem step_nil {s : State} (h : s.inputs = []) : step s = .next s := by
  simp only [step, nextInput_nil h]

/-- A step performs the next input on the state that has taken it. -/
theorem step_cons {s : State} {x : Input} {rest : List Input} (h : s.inputs = x :: rest) :
    step s = performInput x { s with inputs := rest } := by
  simp only [step, nextInput_cons h]

/-- Everything one performed input that answers a next state can have done: run a decoded instruction, turn away a
command word that selects no row, serve a host read, serve a host write, or reset. -/
theorem performInput_cases {x : Input} {s t : State} (h : performInput x s = .next t) :
    (∃ e i, x.encoded = some e ∧ decode e = .ok i ∧ exec i s = .next t) ∨
    (∃ w r, x.encoded = some (.command w) ∧ decodeCommand w = .error r ∧ t = raiseCmdError s) ∨
    (∃ off width r, x = .memRead off width ∧ accessed off width = some r ∧ t = returnToHost (readReg r s) s) ∨
    (∃ off width v r, x = .memWrite off width v ∧ accessed off width = some r ∧ r ≠ .cmd ∧ t = writeReg r v s) ∨
    (x = .reset ∧ t = assertReset s) := by
  cases hx : x.encoded with
  | some e =>
    rw [performInput_of_encoded hx] at h
    cases hd : decode e with
    | ok i =>
      rw [performEncoded_ok hd] at h
      exact .inl ⟨e, i, rfl, hd, h⟩
    | error r =>
      rw [performEncoded_error hd] at h
      cases e with
      | command w => exact .inr (.inl ⟨w, r, rfl, hd, by simpa [rejected] using h.symm⟩)
      | request f => simp [rejected] at h
      | response f => cases hd
      | rxByte b => cases hd
      | rxEnd k => cases hd
      | xportErr => cases hd
  | none =>
    rw [performInput_of_plain hx] at h
    cases x with
    | memRead off width =>
      obtain ⟨r, ha, he⟩ | ⟨_, he⟩ := hostRead_cases off width s
      · rw [performPlain, he] at h
        exact .inr (.inr (.inl ⟨off, width, r, rfl, ha, (Host.Outcome.next.inj h).symm⟩))
      · rw [performPlain, he] at h
        cases h
    | memWrite off width v =>
      obtain ⟨r, ha, he⟩ | ⟨_, he⟩ := hostWrite_cases off width v s
      · rw [performPlain, he] at h
        refine .inr (.inr (.inr (.inl ⟨off, width, v, r, rfl, ha, ?_, (Host.Outcome.next.inj h).symm⟩)))
        rintro rfl
        simp [Input.encoded, ha] at hx
      · rw [performPlain, he] at h
        cases h
    | reset => exact .inr (.inr (.inr (.inr ⟨rfl, by simpa [performPlain] using h.symm⟩)))
    | requestFrame f => cases hx
    | responseFrame f => cases hx
    | rxByte b => cases hx
    | rxEnd k => cases hx
    | xportErr => cases hx

/-- Everything a step that answers a next state can have done: waited, or performed the next input. -/
theorem step_cases {s t : State} (h : step s = .next t) :
    (s.inputs = [] ∧ t = s) ∨
    (∃ x rest, s.inputs = x :: rest ∧ performInput x { s with inputs := rest } = .next t) := by
  cases hi : s.inputs with
  | nil =>
    rw [step_nil hi] at h
    exact .inl ⟨rfl, (Host.Outcome.next.inj h).symm⟩
  | cons x rest =>
    rw [step_cons hi] at h
    exact .inr ⟨x, rest, rfl, h⟩

/-- A step whose next input presents an encoded form that decodes: the equation the encoded cases of `step_cases`
come from. -/
theorem performInput_presenting {e : Encoded} {i : Instr} (h : decode e = .ok i) (s : State) :
    performInput (Input.presenting e) s = exec i s := by
  rw [performInput_of_encoded (encoded_presenting e), performEncoded_ok h]

/-- A host write that reaches a register other than CMD. -/
theorem performInput_memWrite {off : Offset} {r : Reg} {v : Word} (h : accessed off 4 = some r) (hr : r ≠ .cmd)
    (s : State) : performInput (.memWrite off 4 v) s = .next (writeReg r v s) := by
  rw [performInput_of_plain (by simp [Input.encoded, h, hr])]
  simp [performPlain, hostWrite, h]

/-- A host read that reaches a register. -/
theorem performInput_memRead {off : Offset} {r : Reg} (h : accessed off 4 = some r) (s : State) :
    performInput (.memRead off 4) s = .next (returnToHost (readReg r s) s) := by
  rw [performInput_of_plain rfl]
  simp [performPlain, hostRead, h]

@[simp] theorem runSteps_zero (s : State) : runSteps 0 s = .next s := rfl

/-- A run whose first step answers a next state goes on from it. -/
theorem runSteps_succ_of_step {n : Nat} {s t : State} (h : step s = .next t) :
    runSteps (n + 1) s = runSteps n t := by
  have hc : Sys2Proof.core.step s = .next t := h
  simp only [runSteps, Host.Core.run, hc]
  rfl

/-- A run of `m + n` steps goes on from what its first `m` give. -/
theorem runSteps_add {m n : Nat} {s t : State} (h : runSteps m s = .next t) :
    runSteps (m + n) s = runSteps n t := by
  induction m generalizing s with
  | zero =>
    obtain rfl := Host.Outcome.next.inj h
    rw [Nat.zero_add]
  | succ m ih =>
    cases hs : step s with
    | next u =>
      rw [runSteps_succ_of_step hs] at h
      rw [Nat.succ_add, runSteps_succ_of_step hs, ih h]
    | fault r =>
      have hc : Sys2Proof.core.step s = .fault r := hs
      simp only [runSteps, Host.Core.run, hc] at h
      cases h
    | refused r =>
      have hc : Sys2Proof.core.step s = .refused r := hs
      simp only [runSteps, Host.Core.run, hc] at h
      cases h

end Sys2Proof.Machine
end

