-- ==== Sys2Proof/Tests/Slice0.lean ====
section
/-!
SUPPORT. Our own tests. Expected values are those of spec/95_test_vectors.md and of the rules' own examples, named at
each theorem; the `witness_` theorems show a state and operands that meet the hypotheses of the statement they name.
-/

open Sys2Proof Sys2Proof.Machine

namespace Sys2Proof.Tests

set_option Elab.async false

/-- The next state, if there is one. -/
def nextState : Host.Outcome State Fault Refusal → Option State
  | .next t => some t
  | .fault _ => none
  | .refused _ => none

/-- The reset state with these inputs to come. -/
def pending (xs : List Input) : State := { State.reset with inputs := xs }

/-- The reset state but for STATE. -/
def inState (st : TxnState) : State := { State.reset with state := st }

/-- A state that awaits a response of kind `q` and has counted `n` bytes, those of `f` as RX holds them. -/
def awaiting (q : ReqKind) (n : Fin 11) (f : Frame) : State :=
  { State.reset with state := .awaitingResponse, kind := q, rxCnt := n, rx := f }

/-- The arguments of V-ENC-1, V-ENC-7. -/
def args (id : Byte) (addr : Half) (data : Word) : State :=
  { State.reset with argId := id, argAddr := addr, argData := data }

/-- The response of V-DEC-1. -/
def response10 : Frame := #v[0x01, 0x03, 0x00, 0x10, 0x00, 0x00, 0x00, 0x0A, 0x03, 0xF3]

/-! Decoding: words written out from 30_encoding.md R55 and R59. -/

theorem test_decode_nop : decodeTableWord 32 0b00000000000000000000000000000000 = some .nop := by decide
theorem test_decode_crcInit : decodeTableWord 32 0b00000000000000000000000000000001 = some .crcInit := by decide
theorem test_decode_crcUpdate :
    decodeTableWord 32 0b00000000000000001000000100000010 = some (.crcUpdate 0x81#8) := by decide
theorem test_decode_encRead : decodeTableWord 32 0b00000000000000000000000000000011 = some .encRead := by decide
theorem test_decode_encWrite : decodeTableWord 32 0b00000000000000000000000000000110 = some .encWrite := by decide
theorem test_decode_send : decodeTableWord 32 0b00000000000000000000000000010000 = some .send := by decide
theorem test_decode_recv : decodeTableWord 32 0b00000000000000000000000000010001 = some .recv := by decide

/-- Id 0xA5, address 0x8001, payload 2, CRC 0x1234. -/
theorem test_decode_readReq :
    decodeTableWord 80 0b10100101000000111000000000000001000000000000000000000000000000100001001000110100 =
      some (.readReq 0xA5#8 0x8001#16 0x1234#16) := by decide

/-- Id 0xA5, address 0x8001, data 0x80000003, CRC 0x1234. -/
theorem test_decode_writeReq :
    decodeTableWord 80 0b10100101000001101000000000000001100000000000000000000000000000110001001000110100 =
      some (.writeReq 0xA5#8 0x8001#16 0x80000003#32 0x1234#16) := by decide

/-- A frame with function code 7 is no request, and is taken as a response: header, payload, CRC. -/
theorem test_decode_response :
    decodeTableWord 80 0b10100101000001111000000000000001100000000000000000000000000000110001001000110100 =
      some (.response 0xA5078001#32 0x80000003#32 0x1234#16) := by decide

theorem test_decode_rxByte : decodeTableWord 8 0b10000001 = some (.rxByte 0x81#8) := by decide
theorem test_decode_rxEnd :
    decodeTableWord 1 0 = some (.rxEnd .data) ∧ decodeTableWord 1 1 = some (.rxEnd .timeout) := by decide
theorem test_decode_xportErr : decodeTableWord 0 0 = some .xportErr := by decide

/-- V-WORD-3 to V-WORD-6, V-WORD-8 and V-WORD-9: rejected by name. -/
theorem test_decode_illegal :
    decode (.command 0x00000100#32) = .error .byteNonzero ∧
    decode (.command 0x00000105#32) = .error .unknownOpcode ∧
    decode (.command 0x00010003#32) = .error .reservedNonzero ∧
    decode (.command 0x80000002#32) = .error .reservedNonzero ∧
    decode (.command 0x00000012#32) = .error .unknownOpcode ∧
    decode (.command 0x000000FF#32) = .error .unknownOpcode ∧
    decode (.request 0x01040010000000020000#80) = .error .notARequest := by decide

/-! Well-formedness: the frames of V-ENC-1 and V-ENC-7, and the same with their CRC bytes swapped. -/

theorem test_wellFormed_readReq :
    wellFormed (.readReq 0x01#8 0x0010#16 0xC5F2#16) = true ∧
    wellFormed (.readReq 0x01#8 0x0010#16 0xF2C5#16) = false := by decide +kernel
theorem test_wellFormed_writeReq :
    wellFormed (.writeReq 0x01#8 0x0010#16 0x00000005#32 0x07E6#16) = true ∧
    wellFormed (.writeReq 0x01#8 0x0010#16 0x00000005#32 0xE607#16) = false := by decide +kernel

/-! The first instruction after reset, through withFetchWord. -/

/-- V-ENC-3: ENC_READ straight after reset. -/
theorem test_reset_encRead :
    (nextState (step (State.reset.withFetchWord 32 0x00000003))).map (·.tx) =
      some #v[0x00, 0x03, 0x00, 0x00, 0x00, 0x00, 0x00, 0x02, 0xCA, 0xF2] := by decide +kernel

/-- V-TXN-7: SEND in Idle. -/
theorem test_reset_send :
    (nextState (step (State.reset.withFetchWord 32 0x00000010))).map (fun t => (t.state, flagsWord t)) =
      some (.idle, 0x00000001#32) := by decide +kernel

/-! The CRC: V-CRC, V-STEP and V-CMD. -/

theorem test_crc_known :
    crc16 [0x80] = 0xE0BE ∧ crc16 [0x41] = 0x707F ∧ crc16 [0x00, 0x00] = 0xB001 ∧
    crc16 [0x01, 0x03, 0x00, 0x00, 0x00, 0x0A] = 0xCDC5 ∧
    crc16 [0x01, 0x03, 0x00, 0x10, 0x00, 0x00, 0x00, 0x02, 0xF2, 0xC5] = 0x0000 := by decide +kernel

theorem test_crcStep_known :
    crcStep 0x0000 0x01 = 0xC0C1 ∧ crcStep 0x0001 0x00 = 0xC0C1 ∧ crcStep 0x0000 0xFF = 0x4040 ∧
    crcStep 0x4B37 0x00 = 0xD60A ∧ crcStep 0xA001 0x00 = 0xC061 := by decide +kernel

theorem test_nop : (nextState (exec .nop { State.reset with crc := 0x1234 })).map (·.crc) = some 0x1234 := by
  decide +kernel
theorem test_crcInit : (nextState (exec .crcInit { State.reset with crc := 0x1234 })).map (·.crc) = some 0xFFFF := by
  decide +kernel
theorem test_crcUpdate :
    (nextState (exec (.crcUpdate 0x01) { State.reset with crc := 0x0000 })).map (·.crc) = some 0xC0C1 := by
  decide +kernel

/-! Frames: V-ENC. -/

/-- V-ENC-6. -/
theorem test_encRead :
    (nextState (exec .encRead (args 0x02 0x1234 0xFFFFFFFF))).map (fun t => (t.tx, t.kind)) =
      some (#v[0x02, 0x03, 0x12, 0x34, 0x00, 0x00, 0x00, 0x02, 0xA5, 0xC1], .read) := by decide +kernel

/-- V-ENC-12. -/
theorem test_encWrite :
    (nextState (exec .encWrite (args 0xFF 0xFFFF 0x80000000))).map (fun t => (t.tx, t.kind)) =
      some (#v[0xFF, 0x06, 0xFF, 0xFF, 0x80, 0x00, 0x00, 0x00, 0xD4, 0x40], .write) := by decide +kernel

/-- The frame of V-ENC-1 lands in TX. -/
theorem test_readReq :
    (nextState (step (State.reset.withFetchWord 80 0x0103001000000002C5F2))).map (·.tx) =
      some #v[0x01, 0x03, 0x00, 0x10, 0x00, 0x00, 0x00, 0x02, 0xC5, 0xF2] := by decide +kernel

/-- The frame of V-ENC-13 lands in TX. -/
theorem test_writeReq :
    (nextState (step (State.reset.withFetchWord 80 0x0206123412345678506E))).map (·.tx) =
      some #v[0x02, 0x06, 0x12, 0x34, 0x12, 0x34, 0x56, 0x78, 0x50, 0x6E] := by decide +kernel

/-! The transaction: V-TXN and V-DEC. -/

/-- V-TXN-1. -/
theorem test_send :
    (nextState (exec .send { inState .frameBuilt with tx := response10 })).map (fun t => (t.state, t.toTransport)) =
      some (.sent, [.txWrite response10]) := by decide +kernel

/-- V-TXN-10: no second TX_WRITE. -/
theorem test_send_again :
    (nextState (exec .send (inState .sent))).map (fun t => (t.cmdErr, t.toTransport)) = some (true, []) := by
  decide +kernel

/-- V-TXN-2. -/
theorem test_recv :
    (nextState (exec .recv { inState .sent with rx := response10, rxCnt := 10 })).map
        (fun t => (t.rx, t.rxCnt.val, t.toTransport)) =
      some (zeroFrame, 0, [.rxRequest 10]) := by decide +kernel

/-- V-TXN-11. -/
theorem test_recv_decoded :
    (nextState (exec .recv (inState .decoded))).map (fun t => (t.state, t.cmdErr)) = some (.decoded, true) := by
  decide +kernel

/-- V-TXN-3, with a byte that is not 0. -/
theorem test_rxByte :
    (nextState (exec (.rxByte 0x5A) (awaiting .read 3 zeroFrame))).map (fun t => (t.rx, t.rxCnt.val)) =
      some (#v[0, 0, 0, 0x5A, 0, 0, 0, 0, 0, 0], 4) := by decide +kernel

/-- V-TXN-4. -/
theorem test_rxByte_overrun :
    (nextState (exec (.rxByte 0x55) (awaiting .read 10 response10))).map (fun t => (t.rx, t.rxCnt.val, flagsWord t)) =
      some (response10, 10, 0x00000002#32) := by decide +kernel

/-- V-DEC-1. -/
theorem test_rxEnd_data :
    (nextState (exec (.rxEnd .data) (awaiting .read 10 response10))).map (fun t => (statusWord t, t.value)) =
      some (0x00003A04#32, 0x0000000A#32) := by decide +kernel

/-- V-DEC-7. -/
theorem test_rxEnd_timeout :
    (nextState (exec (.rxEnd .timeout) (awaiting .read 10 response10))).map (fun t => (statusWord t, t.value)) =
      some (0x00001A45#32, 0x00000000#32) := by decide +kernel

/-- V-TXN-5. -/
theorem test_xportErr : (nextState (exec .xportErr (inState .sent))).map statusWord = some 0x00000015#32 := by
  decide +kernel

/-- V-TXN-17. -/
theorem test_xportErr_stray :
    (nextState (exec .xportErr { inState .errored with err := .timeout })).map (fun t => (t.err, flagsWord t)) =
      some (.timeout, 0x00000004#32) := by decide +kernel

/-- V-DEC-6: the CRC bytes swapped. -/
theorem test_response :
    (nextState (exec (.response 0x01030010 0x0000000A 0xF303) (awaiting .read 0 zeroFrame))).map
        (fun t => (statusWord t, t.value)) = some (0x00002A04#32, 0x0000000A#32) := by decide +kernel

/-! The window: V-BUS and 10_state.md R30. -/

/-- V-BUS-2. -/
theorem test_read_crc :
    (nextState (step (pending [.memRead 0x18 4]))).map (·.toHost) = some [0x0000FFFF#32] := by decide +kernel

/-- V-BUS-6. -/
theorem test_read_unmapped : step (pending [.memRead 0x68 4]) = .fault (.busFault 0x68) := by rfl

/-- The flags written with 1, and no others, are cleared. -/
theorem test_write_flags :
    (nextState (step { pending [.memWrite 0x08 4 0x5] with cmdErr := true, rxOverrun := true, stray := true })).map
      flagsWord = some 0x00000002#32 := by decide +kernel

/-! Witnesses: states and operands that meet the hypotheses of the statements. -/

theorem witness_EncodeOfDecodeIsTheForm :
    decode (.command 0x0000FF02#32) = .ok (.crcUpdate 0xFF#8) ∧
    decode (.request 0x0103001000000002C5F2#80) = .ok (.readReq 0x01#8 0x0010#16 0xC5F2#16) ∧
    decode (.response 0#80) = .ok (.response 0#32 0#32 0#16) := by decide

theorem witness_CommandWordDecodesToTheRowItSelects :
    decode (.command 0x0000FF02#32) = .ok (.crcUpdate 0xFF#8) ∧
    ∃ r ∈ commandRows, r.selects 0x0000FF02#32 = true ∧ r.mnemonic = "CRC_UPDATE" := by decide

theorem witness_NoTwoCommandRowsOverlap : ∃ r ∈ commandRows, r.selects 0x0000FF02#32 = true := by decide

theorem witness_UnlistedCommandWordOnlySetsCmdErr :
    rsvdField 0x00010003#32 ≠ 0#16 ∧ rsvdField 0x80000002#32 ≠ 0#16 ∧
    (byteField 0x00000100#32 ≠ 0#8 ∧ opField 0x00000100#32 ≠ 0x02#8) ∧
    opField 0x00000004#32 ∉ [0x00#8, 0x01#8, 0x02#8, 0x03#8, 0x06#8, 0x10#8, 0x11#8] ∧
    opField 0x000000FF#32 ∉ [0x00#8, 0x01#8, 0x02#8, 0x03#8, 0x06#8, 0x10#8, 0x11#8] ∧
    (pending [.memWrite 0x00#8 4 0x00010003#32]).inputs = .memWrite 0x00#8 4 0x00010003#32 :: [] := by decide

theorem witness_ResetStateHoldsTheSpecValues : (pending [.reset]).inputs = .reset :: [] := by rfl

theorem witness_ResetInputRestoresTheResetState : (pending [.reset]).inputs = .reset :: [] := by rfl

theorem witness_StepRunsTheDecodedInstruction :
    (pending [.memWrite 0x00#8 4 0x00000102#32]).inputs = Input.presenting (.command 0x00000102#32) :: [] ∧
    decode (.command 0x00000102#32) = .ok (.crcUpdate 0x01#8) := by decide

theorem witness_StepWaitsWhenNothingIsPending : (inState .awaitingResponse).inputs = [] := by rfl

/-- A wrong width, a misaligned offset, and the first and last unmapped offsets of each hole of the map. -/
theorem witness_BadHostAccessIsBusFault :
    (1 : Nat) ≠ 4 ∧ (0x41#8).toNat % 4 ≠ 0 ∧
    (∀ off ∈ [0x20#8, 0x3C#8, 0x68#8, 0x7C#8, 0xA8#8, 0xFC#8], ∀ r : Reg, r.offset ≠ off) ∧
    (pending [.memRead 0x20#8 4]).inputs = .memRead 0x20#8 4 :: [] ∧
    (pending [.memWrite 0x20#8 4 0#32]).inputs = .memWrite 0x20#8 4 0#32 :: [] := by
  refine ⟨by decide, by decide, ?_, rfl, rfl⟩
  intro off h r
  cases r with
  | tx i => revert off i; decide
  | rx i => revert off i; decide
  | _ => revert off; decide

theorem witness_ConformingInputNeverStops :
    (pending [.memRead 0xA4#8 4]).inputs = .memRead 0xA4#8 4 :: [] ∧ (Input.memRead 0xA4#8 4).conforming = true ∧
    (Input.memWrite 0x00#8 4 0xFFFFFFFF#32).conforming = true ∧
    (Input.requestFrame 0x0103001000000002C5F2#80).conforming = true := by decide

theorem witness_HostReadReturnsTheRegister :
    (pending [.memRead 0x00#8 4]).inputs = .memRead Reg.cmd.offset 4 :: [] ∧
    (pending [.memRead 0xA4#8 4]).inputs = .memRead (Reg.rx 9).offset 4 :: [] := by decide

theorem witness_StatusRegisterLayout :
    (pending [.memRead 0x04#8 4]).inputs = .memRead 0x04#8 4 :: [] ∧
    (pending [.memWrite 0x04#8 4 0xFFFFFFFF#32]).inputs = .memWrite 0x04#8 4 0xFFFFFFFF#32 :: [] := by decide

theorem witness_FlagsReadAndWriteOneToClear :
    (pending [.memWrite 0x08#8 4 0x7#32]).inputs = .memWrite 0x08#8 4 0x7#32 :: [] := by decide

/-- A set flag of each kind, and a step that is neither reset nor a write of FLAGS. -/
theorem witness_FlagsStaySet :
    ∃ t, step { pending [.xportErr] with cmdErr := true, rxOverrun := true, stray := true } = .next t ∧
      t.cmdErr = true ∧ t.rxOverrun = true ∧ t.stray = true ∧
      Input.xportErr ≠ .reset ∧ ∀ v, Input.xportErr ≠ .memWrite 0x08#8 4 v :=
  ⟨_, rfl, rfl, rfl, rfl, by decide, fun _ h => by cases h⟩

theorem witness_ArgumentRegisterWrites :
    (pending [.memWrite 0x0C#8 4 0x00000123#32]).inputs = .memWrite 0x0C#8 4 0x00000123#32 :: [] ∧
    (pending [.memWrite 0x10#8 4 0xABCD0010#32]).inputs = .memWrite 0x10#8 4 0xABCD0010#32 :: [] ∧
    (pending [.memWrite 0x14#8 4 0xFFFFFFFF#32]).inputs = .memWrite 0x14#8 4 0xFFFFFFFF#32 :: [] := by decide

theorem witness_ReadOnlyRegistersIgnoreWrites :
    (∀ r ∈ [Reg.status, Reg.crc, Reg.value, Reg.tx 0, Reg.rx 9],
      (pending [.memWrite r.offset 4 0x1234#32]).inputs = .memWrite r.offset 4 0x1234#32 :: []) ∧
    (pending [.memRead 0x00#8 4]).inputs = .memRead 0x00#8 4 :: [] := by decide

theorem witness_NopLeavesEverything : opField 0x00000100#32 = 0x00#8 ∧ 0x00000100#32 ≠ 0x00000000#32 := by decide

theorem witness_CrcUpdateFoldsItsByte :
    (opField 0x0000FF02#32 = 0x02#8 ∧ rsvdField 0x0000FF02#32 = 0#16) ∧
    (opField 0x80000002#32 = 0x02#8 ∧ rsvdField 0x80000002#32 ≠ 0#16) := by decide

theorem witness_CrcBytesMacroReturnsTheCrc :
    (pending [.memWrite 0x00#8 4 0x00000001#32, .memWrite 0x00#8 4 0x00003102#32, .memRead 0x18#8 4]).inputs =
      crcBytesMacro [0x31#8] ++ hostRD .crc :: [] := by decide

theorem witness_CrcRegisterIsIndependent :
    Instr.recv ≠ .crcInit ∧ (∀ b, Instr.recv ≠ .crcUpdate b) ∧ ∃ t, exec .recv (inState .sent) = .next t :=
  ⟨by decide, (fun _ h => by cases h), _, rfl⟩

/-- The four states that may build a frame, and the two that may not. -/
theorem witness_BuiltFrameLayout :
    ∀ st ∈ [TxnState.idle, .frameBuilt, .decoded, .errored],
      (inState st).state ≠ .sent ∧ (inState st).state ≠ .awaitingResponse := by decide

theorem witness_EncodedFramesAreWellFormed :
    ∀ st ∈ [TxnState.idle, .frameBuilt, .decoded, .errored],
      (inState st).state ≠ .sent ∧ (inState st).state ≠ .awaitingResponse := by decide

theorem witness_WriteFrameRoundTrip :
    (pending [.memWrite 0x10#8 4 0x0000FFFF#32, .memWrite 0x14#8 4 0x80000000#32,
        .memWrite 0x00#8 4 0x00000006#32]).inputs =
      hostWR .argAddr ((0xFFFF#16).setWidth 32) :: hostWR .argData 0x80000000#32 :: hostCommand .encWrite :: [] ∧
    State.reset.state ≠ .sent ∧ State.reset.state ≠ .awaitingResponse ∧
    (-2 ^ 31 ≤ (-2 ^ 31 : Int) ∧ (-2 ^ 31 : Int) < 2 ^ 31 ∧ u32 (-2 ^ 31) = 0x80000000#32) := by decide

theorem witness_EncReadBuildsTheReadFrame :
    (∀ st ∈ [TxnState.idle, .frameBuilt, .decoded, .errored],
      (inState st).state ≠ .sent ∧ (inState st).state ≠ .awaitingResponse) ∧
    (∀ st ∈ [TxnState.sent, .awaitingResponse],
      (inState st).state = .sent ∨ (inState st).state = .awaitingResponse) := by decide

theorem witness_EncWriteBuildsTheWriteFrame :
    (∀ st ∈ [TxnState.idle, .frameBuilt, .decoded, .errored],
      (inState st).state ≠ .sent ∧ (inState st).state ≠ .awaitingResponse) ∧
    (∀ st ∈ [TxnState.sent, .awaitingResponse],
      (inState st).state = .sent ∨ (inState st).state = .awaitingResponse) := by decide

theorem witness_RequestFramesSetArgumentsAndBuild :
    (∀ st ∈ [TxnState.idle, .frameBuilt, .decoded, .errored],
      (inState st).state ≠ .sent ∧ (inState st).state ≠ .awaitingResponse) ∧
    (∀ st ∈ [TxnState.sent, .awaitingResponse],
      (inState st).state = .sent ∨ (inState st).state = .awaitingResponse) := by decide

theorem witness_WellFormedRequestFrameLandsInTx :
    decode (.request 0x0103001000000002C5F2#80) = .ok (.readReq 0x01#8 0x0010#16 0xC5F2#16) ∧
    wellFormed (.readReq 0x01#8 0x0010#16 0xC5F2#16) = true ∧
    decode (.request 0x010600100000000507E6#80) = .ok (.writeReq 0x01#8 0x0010#16 0x00000005#32 0x07E6#16) ∧
    wellFormed (.writeReq 0x01#8 0x0010#16 0x00000005#32 0x07E6#16) = true ∧
    State.reset.state ≠ .sent ∧ State.reset.state ≠ .awaitingResponse := by decide +kernel

theorem witness_SendHandsTheFrameToTheTransport :
    (inState .frameBuilt).state = .frameBuilt ∧ (inState .sent).state ≠ .frameBuilt := by decide

theorem witness_RecvOpensTheReadAttempt : (inState .sent).state = .sent ∧ (inState .idle).state ≠ .sent := by decide

/-- RXCNT 0, 9 and 10. -/
theorem witness_RxByteStoresAtRxcnt :
    (∀ n ∈ [(0 : Fin 11), 9], (awaiting .read n zeroFrame).state = .awaitingResponse ∧
      (awaiting .read n zeroFrame).rxCnt.val < 10) ∧
    ((awaiting .read 10 response10).state = .awaitingResponse ∧ (awaiting .read 10 response10).rxCnt.val = 10) ∧
    (inState .sent).state ≠ .awaitingResponse := by decide

/-- Each clause, with RXCNT 0, 1, 9 and 10 where the clauses meet. -/
theorem witness_RxEndSettlesTheOutcome :
    (inState .decoded).state ≠ .awaitingResponse ∧
    ((awaiting .read 10 response10).state = .awaitingResponse ∧ RxEndKind.timeout = .timeout) ∧
    ((awaiting .read 0 zeroFrame).state = .awaitingResponse ∧ (awaiting .read 0 zeroFrame).rxCnt.val = 0) ∧
    (∀ n ∈ [(1 : Fin 11), 9], (awaiting .read n zeroFrame).state = .awaitingResponse ∧
      (awaiting .read n zeroFrame).kind = .read ∧ 0 < (awaiting .read n zeroFrame).rxCnt.val ∧
      (awaiting .read n zeroFrame).rxCnt.val < 10) ∧
    ((awaiting .read 10 response10).kind = .read ∧ (awaiting .read 10 response10).rxCnt.val = 10) ∧
    (∀ n ∈ [(1 : Fin 11), 10], (awaiting .write n zeroFrame).state = .awaitingResponse ∧
      (awaiting .write n zeroFrame).kind = .write ∧ 0 < (awaiting .write n zeroFrame).rxCnt.val) := by decide

theorem witness_DecodedValueIsTheBigEndianPayload :
    (awaiting .read 10 response10).state = .awaitingResponse ∧ (awaiting .read 10 response10).kind = .read ∧
    (awaiting .read 10 response10).rxCnt.val = 10 := by decide

theorem witness_XportErrEndsTheTransaction :
    ((inState .sent).state = .sent ∨ (inState .sent).state = .awaitingResponse) ∧
    ((inState .awaitingResponse).state = .sent ∨ (inState .awaitingResponse).state = .awaitingResponse) ∧
    (inState .frameBuilt).state ≠ .sent ∧ (inState .frameBuilt).state ≠ .awaitingResponse := by decide

theorem witness_ResponseFrameIsReceivedAndDecoded :
    (∀ q ∈ [ReqKind.read, .write], (awaiting q 0 zeroFrame).state = .awaitingResponse ∧
      (awaiting q 0 zeroFrame).rxCnt.val = 0 ∧ (awaiting q 0 zeroFrame).kind = q) ∧
    (inState .sent).state ≠ .awaitingResponse := by decide

/-- The invariants hold at reset, and the step waits there. -/
theorem witness_StepKeepsTheInvariants : StateInv State.reset ∧ step State.reset = .next State.reset :=
  ⟨⟨by decide, by decide, by decide, by decide, by decide, by decide, by decide, by decide⟩, rfl⟩

theorem witness_ReachableStatesSatisfyTheInvariants :
    ∃ t, runSteps 2 { State.reset with inputs := [hostCommand .send, .rxByte 0x55#8] } = .next t ∧
      flagsWord t = 0x00000005#32 :=
  ⟨_, rfl, by decide⟩

theorem witness_OnlyTransportOrResetEndsTheAttempt :
    ∃ t, step { awaiting .read 10 response10 with inputs := [.xportErr] } = .next t ∧
      (awaiting .read 10 response10).state = .awaitingResponse ∧ t.state ≠ .awaitingResponse :=
  ⟨_, rfl, rfl, by decide⟩

theorem witness_TerminalStatesAreLeftOnlyByEncOrReset :
    ((inState .decoded).state = .decoded ∨ (inState .decoded).state = .errored) ∧
    ((inState .errored).state = .decoded ∨ (inState .errored).state = .errored) ∧
    ∃ t, step { inState .errored with inputs := [hostCommand .recv] } = .next t :=
  ⟨by decide, by decide, _, rfl⟩

/-- A step into each of Sent, AwaitingResponse and FrameBuilt. -/
theorem witness_EachFrameIsSentOnceAndReadOnce :
    (∃ t, step { inState .frameBuilt with inputs := [hostCommand .send] } = .next t ∧ t.state = .sent) ∧
    (∃ t, step { inState .sent with inputs := [hostCommand .recv] } = .next t ∧ t.state = .awaitingResponse) ∧
    ∃ t, step { inState .decoded with inputs := [hostCommand .encRead] } = .next t ∧ t.state = .frameBuilt :=
  ⟨⟨_, rfl, rfl⟩, ⟨_, rfl, rfl⟩, _, rfl, rfl⟩

theorem witness_TxAndKindChangeOnlyByEncOrReset :
    ∃ t, step (pending [.memWrite 0x0C#8 4 0x5#32]) = .next t ∧ t.argId = 0x05#8 :=
  ⟨_, rfl, rfl⟩

/-- A write of one argument register leaves the other two. -/
theorem witness_OnlyTheHostWritesArguments :
    ∃ t, step (pending [hostWR .argData 0x5#32]) = .next t ∧ t.argData = 0x5#32 ∧ t.argId = 0#8 ∧ t.argAddr = 0#16 :=
  ⟨_, rfl, rfl, rfl, rfl⟩

theorem witness_ValueErrorIsNeverProduced :
    ∃ t, State.reset.err ≠ .valueError ∧ step { State.reset with inputs := [.rxEnd .data] } = .next t :=
  ⟨_, by decide, rfl⟩

theorem witness_LateTransportEventsAreStray :
    (inState .errored).state ≠ .sent ∧ (inState .errored).state ≠ .awaitingResponse ∧
    (pending [.rxByte 0x01#8, .rxEnd .data, .xportErr]).inputs = [.rxByte 0x01#8, .rxEnd .data] ++ [.xportErr] ∧
    ∀ e ∈ [Input.rxByte 0x01#8, .rxEnd .data], (∃ b, e = .rxByte b) ∨ (∃ k, e = .rxEnd k) ∨ e = .xportErr := by
  refine ⟨by decide, by decide, by decide, ?_⟩
  intro e h
  rcases List.mem_cons.1 h with rfl | h
  · exact .inl ⟨_, rfl⟩
  · rcases List.mem_cons.1 h with rfl | h
    · exact .inr (.inl ⟨_, rfl⟩)
    · cases h

/-- No byte, and ten. -/
theorem witness_DutifulTransportEndsTheAttempt :
    ∀ bs ∈ [[], response10.toList],
      (awaiting .read 0 zeroFrame).state = .awaitingResponse ∧ (awaiting .read 0 zeroFrame).rxCnt.val = 0 ∧
      bs.length ≤ 10 ∧
      { awaiting .read 0 zeroFrame with inputs := dutifulAttempt bs .timeout ++ [] }.inputs =
        dutifulAttempt bs .timeout ++ [] ∧
      { awaiting .read 0 zeroFrame with inputs := bs.map Input.rxByte ++ [Input.xportErr] }.inputs =
        bs.map Input.rxByte ++ Input.xportErr :: [] := by decide

theorem witness_ReadTransactionReturnsThePayload :
    State.reset.state ≠ .sent ∧ State.reset.state ≠ .awaitingResponse ∧
    (pending (readTxnMacro 0x01#8 0x0010#16 ++ dutifulAttempt response10.toList .data)).inputs =
      readTxnMacro 0x01#8 0x0010#16 ++ (dutifulAttempt response10.toList .data ++ []) := by decide +kernel

/-- One byte, and ten. -/
theorem witness_WriteTransactionReturnsTheFrameSent :
    ∀ bs ∈ [[0x77#8], response10.toList],
      State.reset.state ≠ .sent ∧ State.reset.state ≠ .awaitingResponse ∧ 0 < bs.length ∧ bs.length ≤ 10 ∧
      (pending (writeTxnMacro 0x01#8 0x0010#16 0x5#32 ++ dutifulAttempt bs .data)).inputs =
        writeTxnMacro 0x01#8 0x0010#16 0x5#32 ++ (dutifulAttempt bs .data ++ []) := by decide +kernel

theorem witness_HostDataConversion :
    (-2 ^ 31 ≤ (-2 ^ 31 : Int) ∧ (-2 ^ 31 : Int) ≤ 2 ^ 32 - 1) ∧
    (-2 ^ 31 ≤ (2 ^ 32 - 1 : Int) ∧ (2 ^ 32 - 1 : Int) ≤ 2 ^ 32 - 1) ∧
    (-2 ^ 31 - 1 : Int) < -2 ^ 31 ∧ (2 : Int) ^ 32 ≤ 2 ^ 32 ∧
    { State.reset with valueValid := true }.valueValid = true ∧ State.reset.valueValid = false := by decide

theorem witness_HostAddressConversion :
    ('f' ∈ hexSpellings 15 ∧ 'F' ∈ hexSpellings 15 ∧ '0' ∈ hexSpellings 0 ∧ '9' ∈ hexSpellings 9) ∧
    1 ≤ ['1'].length ∧ ['A', 'b', '9'].length ≤ 3 ∧ 4 < ['0', '0', '0', '1', '0'].length ∧
    ∃ c ∈ ['1', 'g'], ∀ d : Fin 16, c ∉ hexSpellings d :=
  ⟨by decide, by decide, by decide, by decide, 'g', by simp, by decide⟩

end Sys2Proof.Tests
end

section
/-!
PROOFS. The register window, STATUS and reset (10_state.md R29 to R37, 70_reset_and_hazards.md R127): host accesses at a
register's offset as rules for one step, the fields of the STATUS word, and the obligations about them.
-/

namespace Sys2Proof.Machine

/-! One step for each host access of a register, and for reset. -/

/-- A 32-bit access at a register's offset reaches it; `accessed_eq_some` is the converse (10_state.md R32). -/
@[simp] theorem accessed_offset (r : Reg) : accessed r.offset 4 = some r := by
  cases r with
  | tx i => revert i; decide
  | rx i => revert i; decide
  | _ => decide

/-- A register's value does not depend on the inputs still to come. -/
theorem readReg_withInputs (r : Reg) (s : State) (rest : List Input) :
    readReg r { s with inputs := rest } = readReg r s := by
  cases r <;> rfl

/-- A host read of a register hands its value to the host and changes nothing else (20_memory.md R41). -/
theorem step_memRead_offset {s : State} {r : Reg} {rest : List Input}
    (h : s.inputs = .memRead r.offset 4 :: rest) :
    step s = .next { s with inputs := rest, toHost := s.toHost ++ [readReg r s] } := by
  rw [step_cons h, performInput_memRead (accessed_offset r), readReg_withInputs]
  rfl

/-- A host write of a register other than CMD writes that register, on the state that has taken the input. -/
theorem step_memWrite_offset {s : State} {r : Reg} {v : Word} {rest : List Input} (hr : r ≠ .cmd)
    (h : s.inputs = .memWrite r.offset 4 v :: rest) :
    step s = .next (writeReg r v { s with inputs := rest }) := by
  rw [step_cons h, performInput_memWrite (accessed_offset r) hr]

/-- The read-only registers (10_state.md R37). -/
def Reg.ReadOnly (r : Reg) : Prop :=
  r = .status ∨ r = .crc ∨ r = .value ∨ (∃ i, r = .tx i) ∨ ∃ i, r = .rx i

theorem Reg.ReadOnly.ne_cmd {r : Reg} (hr : r.ReadOnly) : r ≠ .cmd := by
  obtain rfl | rfl | rfl | ⟨i, rfl⟩ | ⟨i, rfl⟩ := hr <;> simp

theorem writeReg_of_readOnly {r : Reg} (hr : r.ReadOnly) (v : Word) (s : State) : writeReg r v s = s := by
  obtain rfl | rfl | rfl | ⟨i, rfl⟩ | ⟨i, rfl⟩ := hr <;> rfl

/-- A host write of a read-only register only takes the input (10_state.md R37). -/
theorem step_memWrite_of_readOnly {s : State} {r : Reg} {v : Word} {rest : List Input} (hr : r.ReadOnly)
    (h : s.inputs = .memWrite r.offset 4 v :: rest) : step s = .next { s with inputs := rest } := by
  rw [step_memWrite_offset hr.ne_cmd h, writeReg_of_readOnly hr]

/-- The reset input asserts reset, on the state that has taken the input (70_reset_and_hazards.md R127). -/
theorem step_reset {s : State} {rest : List Input} (h : s.inputs = .reset :: rest) :
    step s = .next (assertReset { s with inputs := rest }) := by
  rw [step_cons h, performInput_of_plain rfl]
  rfl

/-- Reset leaves nothing of the state before it but the model's own lists (10_state.md R35; log 11). -/
theorem assertReset_eq_reset (s : State) :
    { assertReset s with inputs := [], toTransport := [], toHost := [] } = State.reset := rfl

@[simp] theorem zeroFrame_getElem {n : Nat} (h : n < 10) : zeroFrame[n] = 0x00#8 := by
  have zeros : zeroFrame = Vector.replicate 10 0x00#8 := rfl
  rw [zeros, Vector.getElem_replicate]

/-! The fields of the STATUS word (10_state.md R29), from the lowest bit up: each lemma on the bits above a field hands
the later ones a shorter word. -/

/-- A one-bit field gives its bit. -/
theorem getLsbD_of_extract {n k : Nat} {x : BitVec n} {b : Bool} (h : x.extractLsb' k 1 = bit b) :
    x.getLsbD k = b := by
  simpa using congrArg (BitVec.getLsbD · 0) h

section
variable (s : State)

theorem statusWord_state : (statusWord s).extractLsb' 0 3 = s.state.code :=
  extract_append_low _ s.state.code

theorem statusWord_reserved3 : (statusWord s).getLsbD 3 = false :=
  getLsbD_of_extract ((extract_append_high _ s.state.code 0 1).trans (extract_append_low _ 0#1))

/-- A field above STATE and the reserved bit 3 is a field of the upper part: ERR and what is above it. -/
theorem statusWord_above_state (k l : Nat) :
    (statusWord s).extractLsb' (4 + k) l =
      (0#17 ++ s.kind.code ++ bit s.valueValid ++ bit s.crcOk ++ BitVec.ofNat 4 s.rxCnt.val ++ 0#1
        ++ s.err.code).extractLsb' k l := by
  rw [show 4 + k = 3 + (1 + k) by omega]
  simp only [statusWord, extract_append_high]

theorem statusWord_err : (statusWord s).extractLsb' 4 3 = s.err.code :=
  (statusWord_above_state s 0 3).trans (extract_append_low _ s.err.code)

theorem statusWord_reserved7 : (statusWord s).getLsbD 7 = false :=
  getLsbD_of_extract ((statusWord_above_state s 3 1).trans
    ((extract_append_high _ s.err.code 0 1).trans (extract_append_low _ 0#1)))

/-- A field above ERR and the reserved bit 7 is a field of the upper part: RXCNT and what is above it. -/
theorem statusWord_above_err (k l : Nat) :
    (statusWord s).extractLsb' (8 + k) l =
      (0#17 ++ s.kind.code ++ bit s.valueValid ++ bit s.crcOk ++ BitVec.ofNat 4 s.rxCnt.val).extractLsb' k l := by
  rw [show 8 + k = 4 + (3 + (1 + k)) by omega, statusWord_above_state]
  simp only [extract_append_high]

theorem statusWord_rxCnt : ((statusWord s).extractLsb' 8 4).toNat = s.rxCnt.val := by
  have field : (statusWord s).extractLsb' 8 4 = BitVec.ofNat 4 s.rxCnt.val :=
    (statusWord_above_err s 0 4).trans (extract_append_low _ _)
  have fits : s.rxCnt.val < 2 ^ 4 := s.rxCnt.isLt.trans (by decide)
  rw [field, BitVec.toNat_ofNat, Nat.mod_eq_of_lt fits]

/-- A field above RXCNT is a field of the upper part: CRC_OK and what is above it. -/
theorem statusWord_above_rxCnt (k l : Nat) :
    (statusWord s).extractLsb' (12 + k) l =
      (0#17 ++ s.kind.code ++ bit s.valueValid ++ bit s.crcOk).extractLsb' k l := by
  rw [show 12 + k = 8 + (4 + k) by omega, statusWord_above_err]
  exact extract_append_high _ _ k l

theorem statusWord_crcOk : (statusWord s).getLsbD 12 = s.crcOk :=
  getLsbD_of_extract ((statusWord_above_rxCnt s 0 1).trans (extract_append_low _ (bit s.crcOk)))

theorem statusWord_valueValid : (statusWord s).getLsbD 13 = s.valueValid :=
  getLsbD_of_extract ((statusWord_above_rxCnt s 1 1).trans
    ((extract_append_high _ (bit s.crcOk) 0 1).trans (extract_append_low _ (bit s.valueValid))))

/-- A field above VALUE_VALID is a field of the upper part: KIND and the reserved bits above it. -/
theorem statusWord_above_valueValid (k l : Nat) :
    (statusWord s).extractLsb' (14 + k) l = (0#17 ++ s.kind.code).extractLsb' k l := by
  rw [show 14 + k = 12 + (1 + (1 + k)) by omega, statusWord_above_rxCnt]
  simp only [extract_append_high]

theorem statusWord_kind : (statusWord s).extractLsb' 14 1 = s.kind.code :=
  (statusWord_above_valueValid s 0 1).trans (extract_append_low 0#17 s.kind.code)

theorem statusWord_reserved15 : (statusWord s).extractLsb' 15 17 = 0#17 :=
  (statusWord_above_valueValid s 1 17).trans
    ((extract_append_high 0#17 s.kind.code 0 17).trans (extract_whole 0#17))

end

/-! The obligations. -/

/-- Settles O15: the numbers are the codes' definitions, the fields those of `statusWord`, and STATUS is read like every
register and written like every read-only one. -/
theorem statusRegisterLayout : Obligations.StatusRegisterLayout := by
  refine ⟨⟨rfl, rfl, rfl, rfl, rfl, rfl⟩, ⟨rfl, rfl, rfl, rfl, rfl⟩, ⟨rfl, rfl⟩, fun s => ?fields,
    fun s rest h => ?read, fun s v rest h => ?write, ?reset⟩
  case fields =>
    exact ⟨statusWord_state s, statusWord_reserved3 s, statusWord_err s, statusWord_reserved7 s, statusWord_rxCnt s,
      statusWord_crcOk s, statusWord_valueValid s, statusWord_kind s, statusWord_reserved15 s⟩
  case read => exact step_memRead_offset (r := .status) h
  case write => exact step_memWrite_of_readOnly (r := .status) (.inl rfl) h
  case reset => decide

/-- Settles O7: the reset table is read off `State.reset`, its buffers by `zeroFrame_getElem`, and a reset step reaches
that state up to the model's own lists. -/
theorem resetStateHoldsTheSpecValues : Obligations.ResetStateHoldsTheSpecValues := by
  have buffer (i : Fin 10) : zeroFrame[i] = 0x00#8 := zeroFrame_getElem i.isLt
  refine ⟨rfl, rfl, rfl, rfl, buffer, buffer, rfl, rfl, rfl, rfl, rfl, rfl, rfl, rfl, rfl, rfl, fun s rest h => ?_⟩
  exact ⟨assertReset { s with inputs := rest }, step_reset h, assertReset_eq_reset _⟩

/-- Settles O19: writes by `step_memWrite_of_readOnly`, and a read of CMD is a read of a register whose value is 0. -/
theorem readOnlyRegistersIgnoreWrites : Obligations.ReadOnlyRegistersIgnoreWrites :=
  ⟨fun _ _ _ _ hr h => step_memWrite_of_readOnly hr h, fun _ _ h => step_memRead_offset (r := .cmd) h⟩

end Sys2Proof.Machine
end

section
/-!
PROOFS. Command words (30_encoding.md R54 to R58): selecting a row of the opcode table and decoding are each an
equivalence about the fields OP, BYTE and RSVD, and the obligations compare the two.
-/

namespace Sys2Proof.Machine

/-- 30_encoding.md R57: RSVD is 0, and BYTE is 0 unless it is the operand of CRC_UPDATE. -/
def LegalFields (w : Word) : Prop :=
  rsvdField w = 0#16 ∧ (opField w = 0x02#8 ∨ byteField w = 0#8)

/-! Rows and fields. -/

/-- A command word is determined by its fields (30_encoding.md R54). -/
theorem commandFields_ext_iff {v w : Word} :
    v = w ↔ rsvdField v = rsvdField w ∧ byteField v = byteField w ∧ opField v = opField w := by
  constructor
  · rintro rfl
    exact ⟨rfl, rfl, rfl⟩
  · rintro ⟨hrsvd, hbyte, hop⟩
    rw [← commandFields_append v, ← commandFields_append w, hrsvd, hbyte, hop]

/-- Matching under a mask is matching field by field. -/
theorem selects_iff_fields (r : CommandRow) (w : Word) :
    r.selects w = true ↔
      rsvdField w &&& rsvdField r.mask = rsvdField r.pattern ∧
      byteField w &&& byteField r.mask = byteField r.pattern ∧
      opField w &&& opField r.mask = opField r.pattern := by
  rw [CommandRow.selects, beq_iff_eq, commandFields_ext_iff]
  simp only [rsvdField, byteField, opField, BitVec.extractLsb'_and]

/-- Every row fixes RSVD at 0 and OP at its opcode, and every row but that of CRC_UPDATE fixes BYTE at 0. -/
theorem commandRow_fields : ∀ r ∈ commandRows,
    rsvdField r.mask = BitVec.allOnes 16 ∧ rsvdField r.pattern = 0#16 ∧ opField r.mask = BitVec.allOnes 8 ∧
    byteField r.pattern = 0#8 ∧
    byteField r.mask = if opField r.pattern = 0x02#8 then 0#8 else BitVec.allOnes 8 := by
  decide

/-- A row selects the words of its opcode whose other fields are legal. -/
theorem selects_iff {r : CommandRow} (hr : r ∈ commandRows) (w : Word) :
    r.selects w = true ↔ LegalFields w ∧ opField w = opField r.pattern := by
  obtain ⟨rsvdMask, rsvdZero, opMask, byteZero, byteMask⟩ := commandRow_fields r hr
  rw [selects_iff_fields, rsvdMask, rsvdZero, opMask, byteZero, byteMask, BitVec.and_allOnes, BitVec.and_allOnes,
    LegalFields, and_assoc]
  refine and_congr_right fun _ => and_congr_left fun hop => ?_
  rw [hop]
  split
  · next update => simp [update]
  · next other => simp only [BitVec.and_allOnes, other, false_or]

/-! Rows and instructions. -/

/-- A command with no byte operand has a row with its opcode and its mnemonic. -/
theorem exists_row_of_plainCommand {op : Byte} {i : Instr} (h : plainCommand op = some i) :
    ∃ r ∈ commandRows, opField r.pattern = op ∧ r.mnemonic = i.mnemonic := by
  unfold plainCommand at h
  split_ifs at h with hop hop hop hop hop hop
  all_goals
    obtain rfl := Option.some.inj h
    rw [hop]
    decide

/-- A row is that of CRC_UPDATE, or its opcode names a command with its mnemonic. -/
theorem plainCommand_of_row : ∀ r ∈ commandRows,
    (opField r.pattern = 0x02#8 ∧ r.mnemonic = "CRC_UPDATE") ∨
      (plainCommand (opField r.pattern)).map Instr.mnemonic = some r.mnemonic := by
  decide

/-- CRC_UPDATE is no command without a byte operand. -/
theorem plainCommand_update : plainCommand 0x02#8 = none := by
  decide

/-- A command word decodes exactly when its fields are legal and its OP names a command. -/
theorem decodeCommand_ok_iff {w : Word} {i : Instr} :
    decodeCommand w = .ok i ↔
      LegalFields w ∧ ((opField w = 0x02#8 ∧ i = .crcUpdate (byteField w)) ∨ plainCommand (opField w) = some i) := by
  constructor
  · intro h
    obtain ⟨hrsvd, ⟨hop, hi⟩ | ⟨-, hbyte, hi⟩⟩ := decodeCommand_ok h
    · exact ⟨⟨hrsvd, .inl hop⟩, .inl ⟨hop, hi⟩⟩
    · exact ⟨⟨hrsvd, .inr hbyte⟩, .inr hi⟩
  · rintro ⟨⟨hrsvd, hbyte⟩, ⟨hop, rfl⟩ | hi⟩
    · simp [decodeCommand, hrsvd, hop]
    · have hop : opField w ≠ 0x02#8 := by
        intro update
        rw [update, plainCommand_update] at hi
        cases hi
      simp [decodeCommand, hrsvd, hop, hi, hbyte.resolve_left hop]

/-- A command word that decodes is selected by a row with the instruction's mnemonic. -/
theorem exists_row_of_decodeCommand {w : Word} {i : Instr} (h : decodeCommand w = .ok i) :
    ∃ r ∈ commandRows, r.selects w = true ∧ r.mnemonic = i.mnemonic := by
  obtain ⟨legal, ⟨hop, rfl⟩ | hi⟩ := decodeCommand_ok_iff.1 h
  · have row : ∃ r ∈ commandRows, opField r.pattern = 0x02#8 ∧ r.mnemonic = "CRC_UPDATE" := by decide
    obtain ⟨r, hr, hpat, hname⟩ := row
    exact ⟨r, hr, (selects_iff hr w).2 ⟨legal, hop.trans hpat.symm⟩, hname⟩
  · obtain ⟨r, hr, hpat, hname⟩ := exists_row_of_plainCommand hi
    exact ⟨r, hr, (selects_iff hr w).2 ⟨legal, hpat.symm⟩, hname⟩

/-- A command word that a row selects decodes to an instruction with the row's mnemonic. -/
theorem decodeCommand_of_selects {r : CommandRow} {w : Word} (hr : r ∈ commandRows) (h : r.selects w = true) :
    ∃ i, decodeCommand w = .ok i ∧ i.mnemonic = r.mnemonic := by
  obtain ⟨legal, hop⟩ := (selects_iff hr w).1 h
  obtain ⟨update, hname⟩ | named := plainCommand_of_row r hr
  · exact ⟨.crcUpdate (byteField w), decodeCommand_ok_iff.2 ⟨legal, .inl ⟨hop.trans update, rfl⟩⟩, hname.symm⟩
  · obtain ⟨i, hi, hname⟩ := Option.map_eq_some_iff.1 named
    exact ⟨i, decodeCommand_ok_iff.2 ⟨legal, .inr (hop ▸ hi)⟩, hname⟩

/-! Words outside the table. -/

/-- A word that no row selects does not decode. -/
theorem decodeCommand_error_of_unselected {w : Word} (h : ∀ r ∈ commandRows, r.selects w = false) :
    ∃ e, decodeCommand w = .error e := by
  cases hd : decodeCommand w with
  | error e => exact ⟨e, rfl⟩
  | ok i =>
    obtain ⟨r, hr, selected, -⟩ := exists_row_of_decodeCommand hd
    rw [h r hr] at selected
    cases selected

/-- A command word that does not decode, written to CMD, raises CmdError on the state that has taken the input
(60_exceptions.md R111). -/
theorem step_command_of_error {s : State} {w : Word} {rest : List Input} {e : DecodeError}
    (hd : decodeCommand w = .error e) (h : s.inputs = .memWrite Reg.cmd.offset 4 w :: rest) :
    step s = .next (raiseCmdError { s with inputs := rest }) := by
  have command : (Input.memWrite Reg.cmd.offset 4 w).encoded = some (.command w) := encoded_presenting (.command w)
  rw [step_cons h, performInput_of_encoded command, performEncoded_error (e := .command w) hd]
  rfl

/-! The obligations. -/

/-- Settles O3: `selects_iff` and `decodeCommand_ok_iff` ask the same of the fields. -/
theorem commandWordDecodesToTheRowItSelects : Obligations.CommandWordDecodesToTheRowItSelects :=
  ⟨fun _ _ h => exists_row_of_decodeCommand h, fun _ _ hr h => decodeCommand_of_selects hr h⟩

/-- Settles O6: each of the three hypotheses contradicts `selects_iff`, and a word that no row selects does not
decode. -/
theorem unlistedCommandWordOnlySetsCmdErr : Obligations.UnlistedCommandWordOnlySetsCmdErr := by
  intro s w rest unlisted hin
  have unselected : ∀ r ∈ commandRows, r.selects w = false := by
    intro r hr
    refine Bool.eq_false_iff.2 fun selected => ?_
    obtain ⟨⟨hrsvd, hbyte⟩, hop⟩ := (selects_iff hr w).1 selected
    obtain reserved | ⟨operand, notUpdate⟩ | unknown := unlisted
    · exact reserved hrsvd
    · exact operand (hbyte.resolve_left notUpdate)
    · have listed : ∀ r ∈ commandRows,
          opField r.pattern ∈ [0x00#8, 0x01#8, 0x02#8, 0x03#8, 0x06#8, 0x10#8, 0x11#8] := by decide
      exact unknown (hop ▸ listed r hr)
  obtain ⟨e, hd⟩ := decodeCommand_error_of_unselected unselected
  exact ⟨unselected, step_command_of_error hd hin⟩

end Sys2Proof.Machine
end

section
/-!
PROOFS. The CRC generator (40_crc.md R68, R71 to R73): the byte step as iterated conditional shifts, what each of the
three commands does to a state, and which of their words are legal.
-/

namespace Sys2Proof.Machine

/-! The byte step. -/

/-- One iteration of the byte step, its branches in the spec's order (40_crc.md R68). -/
theorem crcBit_eq :
    crcBit = fun c : Half => if c.getLsbD 0 = false then c >>> 1 else (c >>> 1) ^^^ 0xA001#16 := by
  funext c
  rw [crcBit]
  cases c.getLsbD 0 <;> rfl

/-- The model's recursion is the iteration of `crcBit`. -/
theorem crcBits_eq_iterate (n : Nat) (c : Half) : crcBits n c = crcBit^[n] c := by
  induction n generalizing c with
  | zero => rfl
  | succ n ih => exact ih (crcBit c)

/-! What the three commands do to a state. -/

section
variable (s : State)

@[simp] theorem exec_nop : exec .nop s = .next s := rfl

@[simp] theorem exec_crcInit : exec .crcInit s = .next { s with crc := Config.crcInit } := rfl

@[simp] theorem exec_crcUpdate (b : Byte) : exec (.crcUpdate b) s = .next { s with crc := crcStep s.crc b } := rfl

end

/-! Which of their words are legal. -/

/-- A command word whose fields are not legal decodes to nothing (30_encoding.md R57). -/
theorem decodeCommand_ne_ok {w : Word} (illegal : ¬ LegalFields w) (i : Instr) : decodeCommand w ≠ .ok i :=
  fun decoded => illegal (decodeCommand_ok_iff.1 decoded).1

/-- A command word of OP 0x00 with legal fields is the word 0. -/
theorem eq_zero_of_legal {w : Word} (hop : opField w = 0x00#8) (legal : LegalFields w) : w = 0x00000000#32 := by
  obtain ⟨hrsvd, update | hbyte⟩ := legal
  · rw [hop] at update
    exact absurd update (by decide)
  · exact commandFields_ext_iff.2 ⟨hrsvd, hbyte, hop⟩

/-- A command word of OP 0x02 is legal when its RSVD is 0, whatever its BYTE. -/
theorem legalFields_update_iff {w : Word} (hop : opField w = 0x02#8) : LegalFields w ↔ rsvdField w = 0#16 :=
  and_iff_left (.inl hop)

/-! The obligations. -/

/-- Settles O24: the two decode clauses by `legalFields_update_iff`, the effect by `exec_crcUpdate`, and the corner
values of the step by evaluation. -/
theorem crcUpdateFoldsItsByte : Obligations.CrcUpdateFoldsItsByte := by
  refine ⟨fun w hop hrsvd => ?legal, fun w i hop hrsvd => ?illegal, fun s b => exec_crcUpdate s b, ?corners⟩
  case legal => exact decodeCommand_ok_iff.2 ⟨(legalFields_update_iff hop).2 hrsvd, .inl ⟨hop, rfl⟩⟩
  case illegal => exact decodeCommand_ne_ok (mt (legalFields_update_iff hop).1 hrsvd) i
  case corners => decide

/-- Settles O20: the model iterates `crcBit` eight times, and `crcBit` is the spec's conditional shift. -/
theorem crcStepIsEightShifts : Obligations.CrcStepIsEightShifts := by
  intro c b
  rw [crcStep, crcBits_eq_iterate, crcBit_eq]

/-- Settles O22: a word of OP 0x00 that decodes has legal fields, so it is the word 0. -/
theorem nopLeavesEverything : Obligations.NopLeavesEverything :=
  ⟨rfl, fun _ i hop nonzero => decodeCommand_ne_ok (mt (eq_zero_of_legal hop) nonzero) i, exec_nop⟩

/-- Settles O23: the word decodes by evaluation, and the effect is `exec_crcInit`. -/
theorem crcInitSetsTheAccumulator : Obligations.CrcInitSetsTheAccumulator :=
  ⟨rfl, exec_crcInit⟩

end Sys2Proof.Machine
end

section
/-!
PROOFS. The request frame and the two commands that build it (41_frame_encode.md R76 to R83): the bytes of a built
frame, the CRC a frame carries, and ENC_READ and ENC_WRITE as instances of `buildRequest` in every state.
-/

namespace Sys2Proof.Machine

/-! The bytes of a frame. -/

/-- The fields in wire order, then the CRC of the bytes before it, high byte first (41_frame_encode.md R76, R77). -/
theorem buildFrame_toList (id fc : Byte) (addr : Half) (payload : Word) :
    (buildFrame id fc addr payload).toList =
      (id :: fc :: (be16 addr ++ be32 payload)) ++ be16 (crc16 (id :: fc :: (be16 addr ++ be32 payload))) := rfl

/-- Two bytes concatenated are the first shifted above the second (20_memory.md R43). -/
theorem half2_eq_shift_or (hi lo : Byte) : half2 hi lo = (hi.setWidth 16 <<< 8 ||| lo.setWidth 16) := by
  rw [half2, ← BitVec.setWidth_append_eq_shiftLeft_setWidth_or, BitVec.setWidth_eq]

/-- A frame is well-formed when its first eight bytes have the CRC it carries (41_frame_encode.md R83). -/
theorem frameWellFormed_iff (f : Frame) : frameWellFormed f = true ↔ crc16 (frameBody f) = frameCrc f :=
  beq_iff_eq

/-! What the two commands do to a state (41_frame_encode.md R79 to R82). -/

section
variable (s : State)

@[simp] theorem exec_encRead : exec .encRead s = .next (buildRequest .read s) := rfl

@[simp] theorem exec_encWrite : exec .encWrite s = .next (buildRequest .write s) := rfl

end

/-- The frame in TX of a request that may be built (41_frame_encode.md R76). -/
theorem buildRequest_tx (q : ReqKind) {s : State} (notSent : s.state ≠ .sent)
    (notAwaiting : s.state ≠ .awaitingResponse) :
    (buildRequest q s).tx = buildFrame s.argId q.functionCode s.argAddr (requestPayload q s) := by
  rw [buildRequest_of_legal notSent notAwaiting, encCommon_tx]

/-! The obligations. -/

/-- Settles O27: the layout is `buildFrame_toList`, and each command's frame is `buildRequest_tx` for its kind. -/
theorem builtFrameLayout : Obligations.BuiltFrameLayout :=
  ⟨buildFrame_toList,
    fun s notSent notAwaiting => ⟨_, exec_encRead s, buildRequest_tx .read notSent notAwaiting⟩,
    fun s notSent notAwaiting => ⟨_, exec_encWrite s, buildRequest_tx .write notSent notAwaiting⟩⟩

/-- Settles O28: the CRC a frame carries, read as a shift and an or. -/
theorem wellFormedMeansTheCrcMatches : Obligations.WellFormedMeansTheCrcMatches := by
  intro f
  rw [frameWellFormed_iff, frameCrc, half2_eq_shift_or, frameBody]

/-- Settles O31: the word decodes by evaluation, and the effect in either case is that of `buildRequest` for a read,
its `encCommon` written out. -/
theorem encReadBuildsTheReadFrame : Obligations.EncReadBuildsTheReadFrame :=
  ⟨rfl,
    fun s notSent notAwaiting => (exec_encRead s).trans (congrArg _ (buildRequest_of_legal notSent notAwaiting)),
    fun s inFlight => (exec_encRead s).trans (congrArg _ (buildRequest_of_inFlight inFlight))⟩

/-- Settles O32: as for ENC_READ, with `buildRequest` for a write. -/
theorem encWriteBuildsTheWriteFrame : Obligations.EncWriteBuildsTheWriteFrame :=
  ⟨rfl,
    fun s notSent notAwaiting => (exec_encWrite s).trans (congrArg _ (buildRequest_of_legal notSent notAwaiting)),
    fun s inFlight => (exec_encWrite s).trans (congrArg _ (buildRequest_of_inFlight inFlight))⟩

end Sys2Proof.Machine
end

section
/-!
PROOFS. The transaction (42_transaction.md R90 to R98): what SEND, RECV and the three transport events do to a state,
the classification of a read attempt's end, and the value a response holds.
-/

namespace Sys2Proof.Machine

/-! What the five instructions do to a state. -/

section
variable (s : State)

@[simp] theorem exec_send : exec .send s = .next (sendFrame s) := rfl

@[simp] theorem exec_recv : exec .recv s = .next (openRead s) := rfl

@[simp] theorem exec_rxByte (b : Byte) : exec (.rxByte b) s = .next (receiveByte s b) := rfl

@[simp] theorem exec_rxEnd (k : RxEndKind) : exec (.rxEnd k) s = .next (endRead k s) := rfl

@[simp] theorem exec_xportErr : exec .xportErr s = .next (transportException s) := rfl

end

theorem sendFrame_of_frameBuilt {s : State} (built : s.state = .frameBuilt) :
    sendFrame s = { emit (.txWrite s.tx) s with state := .sent } :=
  if_pos built

theorem sendFrame_of_not_frameBuilt {s : State} (notBuilt : s.state ≠ .frameBuilt) : sendFrame s = raiseCmdError s :=
  if_neg notBuilt

theorem openRead_of_sent {s : State} (sent : s.state = .sent) :
    openRead s =
      { emit (.rxRequest Config.responseLen) s with
        rx := zeroFrame, rxCnt := 0, crcOk := false, state := .awaitingResponse } :=
  if_pos sent

theorem openRead_of_not_sent {s : State} (notSent : s.state ≠ .sent) : openRead s = raiseCmdError s :=
  if_neg notSent

theorem transportException_of_inFlight {s : State} (inFlight : s.state = .sent ∨ s.state = .awaitingResponse) :
    transportException s = enterErrored .communicationError s :=
  if_pos ((inFlight_iff _).2 inFlight)

theorem transportException_of_not_inFlight {s : State} (notSent : s.state ≠ .sent)
    (notAwaiting : s.state ≠ .awaitingResponse) : transportException s = raiseStray s :=
  if_neg (Bool.eq_false_iff.1 ((not_inFlight_iff _).2 ⟨notSent, notAwaiting⟩))

/-! The classification of a read attempt's end, and its CRC check. -/

/-- Either kind of request times out on TIMEOUT and on no byte (42_transaction.md R95, R96). -/
theorem classify_eq_timeout (q : ReqKind) {k : RxEndKind} {n : Nat} (h : k = .timeout ∨ n = 0) :
    classify q k n = .timeout := by
  cases q with
  | read => exact if_pos h
  | write => exact if_pos h

/-- A read of 1 to 9 bytes is an IndexError (42_transaction.md R95). -/
theorem classifyRead_eq_indexError {n : Nat} (someByte : 0 < n) (short : n < 10) :
    classifyRead .data n = .indexError := by
  have notTimeout : ¬(RxEndKind.data = .timeout ∨ n = 0) := by simp [someByte.ne']
  rw [classifyRead, if_neg notTimeout, if_pos short]

/-- CRC_OK of fewer than ten bytes is 0, of ten bytes whether they are well-formed (42_transaction.md R98). -/
theorem crcMatch_eq_decide (n : Nat) (f : Frame) : crcMatch n f = decide (n = 10 ∧ frameWellFormed f = true) := by
  by_cases full : n = 10 <;> simp [crcMatch, full]

theorem crcMatch_of_short {n : Nat} (short : n < 10) (f : Frame) : crcMatch n f = false :=
  if_neg short.ne

theorem crcMatch_ten (f : Frame) : crcMatch 10 f = frameWellFormed f := rfl

/-! RX_END by the classification it meets (42_transaction.md R93). -/

theorem endRead_of_error {k : RxEndKind} {s : State} {e : ErrCode} (awaiting : s.state = .awaitingResponse)
    (classified : classify s.kind k s.rxCnt.val = e) (error : e ≠ .success) :
    endRead k s = enterErrored e { s with crcOk := crcMatch s.rxCnt.val s.rx } := by
  rw [endRead_of_awaiting awaiting, classified, settleOutcome_error error]

theorem endRead_of_success {k : RxEndKind} {s : State} (awaiting : s.state = .awaitingResponse)
    (classified : classify s.kind k s.rxCnt.val = .success) :
    endRead k s = enterDecoded { s with crcOk := crcMatch s.rxCnt.val s.rx } := by
  rw [endRead_of_awaiting awaiting, classified, settleOutcome_success]

/-- TIMEOUT, or no byte, is a timeout of either kind of request. -/
theorem endRead_of_timeout {k : RxEndKind} {s : State} (awaiting : s.state = .awaitingResponse)
    (h : k = .timeout ∨ s.rxCnt.val = 0) :
    endRead k s = enterErrored .timeout { s with crcOk := crcMatch s.rxCnt.val s.rx } :=
  endRead_of_error awaiting (classify_eq_timeout s.kind h) (by decide)

/-- A read of 1 to 9 bytes ends in IndexError, with CRC_OK 0. -/
theorem endRead_of_short_read {s : State} (awaiting : s.state = .awaitingResponse) (read : s.kind = .read)
    (someByte : 0 < s.rxCnt.val) (short : s.rxCnt.val < 10) :
    endRead .data s = enterErrored .indexError { s with crcOk := false } := by
  have classified : classify s.kind .data s.rxCnt.val = .indexError := by
    rw [read]
    exact classifyRead_eq_indexError someByte short
  rw [endRead_of_error awaiting classified (by decide), crcMatch_of_short short]

/-- A read of ten bytes decodes the value RX holds, whatever its CRC. -/
theorem endRead_of_full_read {s : State} (awaiting : s.state = .awaitingResponse) (read : s.kind = .read)
    (full : s.rxCnt.val = 10) :
    endRead .data s =
      { s with
        crcOk := frameWellFormed s.rx, state := .decoded, err := .success, value := framePayload s.rx
        valueValid := true } := by
  have classified : classify s.kind .data s.rxCnt.val = .success := by
    rw [read]
    exact (classifyRead_success_iff _ _).2 ⟨rfl, full.ge⟩
  rw [endRead_of_success awaiting classified, full, crcMatch_ten]
  exact enterDecoded_of_read read

/-- A write with a byte of response is a success with no value, whatever its CRC. -/
theorem endRead_of_answered_write {s : State} (awaiting : s.state = .awaitingResponse) (write : s.kind = .write)
    (someByte : 0 < s.rxCnt.val) :
    endRead .data s =
      { s with crcOk := crcMatch s.rxCnt.val s.rx, state := .decoded, err := .success } := by
  have classified : classify s.kind .data s.rxCnt.val = .success := by
    rw [write]
    exact (classifyWrite_success_iff _ _).2 ⟨rfl, someByte⟩
  rw [endRead_of_success awaiting classified]
  exact enterDecoded_of_write write

/-! The value a response holds. -/

/-- Four bytes concatenated are each shifted above the ones after it (20_memory.md R43). -/
theorem word4_eq_shift_or (b3 b2 b1 b0 : Byte) :
    word4 b3 b2 b1 b0 =
      (b3.setWidth 32 <<< 24 ||| b2.setWidth 32 <<< 16 ||| b1.setWidth 32 <<< 8 ||| b0.setWidth 32) := by
  have bytes : (b3 ++ b2 ++ b1 ++ b0).setWidth 32 =
      (b3.setWidth 32 <<< (8 + 8 + 8) ||| b2.setWidth 32 <<< (8 + 8) ||| b1.setWidth 32 <<< 8 ||| b0.setWidth 32) := by
    simp only [BitVec.setWidth_append_eq_shiftLeft_setWidth_or, BitVec.shiftLeft_or_distrib, BitVec.shiftLeft_add]
  exact (BitVec.setWidth_eq _).symm.trans bytes

/-- The two's complement reading of a word (00_scope.md R9). -/
theorem s32_eq_ite (p : Word) : s32 p = if p.toNat < 2 ^ 31 then (p.toNat : Int) else (p.toNat : Int) - 2 ^ 32 := by
  rw [s32, BitVec.toInt_eq_toNat_cond]
  split <;> split <;> omega

/-! The obligations. -/

/-- Settles O38: the three cases of `receiveByte`; the bytes of RX after the store are those of `Vector.set`. -/
theorem rxByteStoresAtRxcnt : Obligations.RxByteStoresAtRxcnt := by
  refine ⟨fun s b awaiting room => ?stored, fun s b awaiting full => ?dropped, fun s b notAwaiting => ?stray⟩
  case stored =>
    refine ⟨_, (exec_rxByte s b).trans (congrArg _ (receiveByte_of_room awaiting room)), rfl, fun j => ?_, rfl⟩
    simp only [Fin.getElem_fin, Vector.getElem_set, eq_comm]
  case dropped => exact (exec_rxByte s b).trans (congrArg _ (receiveByte_of_full awaiting full))
  case stray => exact (exec_rxByte s b).trans (congrArg _ (receiveByte_of_not_awaiting notAwaiting))

/-- Settles O39: a case each for the classifications RX_END can meet, and one for the states with no read attempt. -/
theorem rxEndSettlesTheOutcome : Obligations.RxEndSettlesTheOutcome := by
  refine ⟨fun s k notAwaiting => ?stray, fun s k awaiting h => ?timeout,
    fun s awaiting read someByte short => ?indexError, fun s awaiting read full => ?value,
    fun s awaiting write someByte => ?noValue⟩
  case stray => rw [exec_rxEnd, endRead_of_not_awaiting notAwaiting, raiseStray]
  case timeout => rw [exec_rxEnd, endRead_of_timeout awaiting h, enterErrored, crcMatch_eq_decide]
  case indexError => rw [exec_rxEnd, endRead_of_short_read awaiting read someByte short, enterErrored]
  case value => rw [exec_rxEnd, endRead_of_full_read awaiting read full]
  case noValue => rw [exec_rxEnd, endRead_of_answered_write awaiting write someByte, crcMatch_eq_decide]

/-- Settles O36: the word decodes by evaluation, and the effect is that of `sendFrame`, in FrameBuilt and elsewhere. -/
theorem sendHandsTheFrameToTheTransport : Obligations.SendHandsTheFrameToTheTransport :=
  ⟨rfl,
    fun s built => (exec_send s).trans (congrArg _ (sendFrame_of_frameBuilt built)),
    fun s notBuilt => (exec_send s).trans (congrArg _ (sendFrame_of_not_frameBuilt notBuilt))⟩

/-- Settles O37: as for SEND, with `openRead`, in Sent and elsewhere. -/
theorem recvOpensTheReadAttempt : Obligations.RecvOpensTheReadAttempt :=
  ⟨rfl,
    fun s sent => (exec_recv s).trans (congrArg _ (openRead_of_sent sent)),
    fun s notSent => (exec_recv s).trans (congrArg _ (openRead_of_not_sent notSent))⟩

/-- Settles O40: the payload's bytes by `word4_eq_shift_or`, the write of VALUE by `endRead_of_full_read`, and the
signed reading by `s32_eq_ite`. -/
theorem decodedValueIsTheBigEndianPayload : Obligations.DecodedValueIsTheBigEndianPayload :=
  ⟨fun f => word4_eq_shift_or f[4] f[5] f[6] f[7],
    fun s awaiting read full =>
      ⟨_, (exec_rxEnd s .data).trans (congrArg _ (endRead_of_full_read awaiting read full)), rfl, rfl, rfl⟩,
    s32_eq_ite⟩

/-- Settles O42: the effect is that of `transportException`, its `enterErrored` written out. -/
theorem xportErrEndsTheTransaction : Obligations.XportErrEndsTheTransaction :=
  ⟨fun s inFlight => (exec_xportErr s).trans (congrArg _ (transportException_of_inFlight inFlight)),
    fun s notSent notAwaiting =>
      (exec_xportErr s).trans (congrArg _ (transportException_of_not_inFlight notSent notAwaiting))⟩

end Sys2Proof.Machine
end

section
/-!
PROOFS. The host's data conversion and the signed value of a read (60_exceptions.md R121): the two conversions of
00_scope.md R9 as arithmetic on integers, the range the host accepts, and the value it returns.
-/

namespace Sys2Proof.Machine

/-! `u32` and `s32` as arithmetic (00_scope.md R9). -/

/-- The pattern of an integer is its remainder by 2^32. -/
theorem toNat_u32 (v : Int) : ((u32 v).toNat : Int) = v % 2 ^ 32 := by
  rw [u32, BitVec.toNat_ofInt]
  omega

/-- A negative integer has the pattern of its two's complement. -/
theorem u32_two_pow_add (v : Int) : u32 (2 ^ 32 + v) = u32 v := by
  apply BitVec.eq_of_toNat_eq
  have shifted := toNat_u32 (2 ^ 32 + v)
  rw [Int.add_emod_left, ← toNat_u32] at shifted
  exact_mod_cast shifted

theorem neg_two_pow_le_s32 (p : Word) : -2 ^ 31 ≤ s32 p := BitVec.le_toInt p

theorem s32_le (p : Word) : s32 p ≤ 2 ^ 31 - 1 := Int.le_sub_one_of_lt (BitVec.toInt_lt (x := p))

/-- An integer of the signed range comes back from its pattern. -/
theorem s32_u32 {v : Int} (low : -2 ^ 31 ≤ v) (high : v < 2 ^ 31) : s32 (u32 v) = v := by
  have pattern := toNat_u32 v
  rw [s32_eq_ite]
  split <;> omega

/-! What the host accepts and returns. -/

theorem hostData_of_mem_range {v : Int} (low : -2 ^ 31 ≤ v) (high : v ≤ 2 ^ 32 - 1) : hostData v = .ok (u32 v) :=
  if_pos ⟨low, high⟩

theorem hostData_of_out_of_range {v : Int} (h : v < -2 ^ 31 ∨ 2 ^ 32 ≤ v) : hostData v = .error .valueError := by
  have refused : ¬(-2 ^ 31 ≤ v ∧ v ≤ 2 ^ 32 - 1) := by omega
  exact if_neg refused

theorem readResult_value_of_valid {s : State} (valid : s.valueValid = true) :
    (readResult s).1 = some (s32 s.value) :=
  if_pos valid

theorem readResult_value_of_not_valid {s : State} (notValid : s.valueValid = false) : (readResult s).1 = none :=
  if_neg (Bool.eq_false_iff.1 notValid)

/-- Settles O58: the two ranges of `hostData`, the round trip and the remainder by `toNat_u32`, and the two cases of
`readResult`. -/
theorem hostDataConversion : Obligations.HostDataConversion :=
  ⟨fun _ => hostData_of_mem_range,
    fun _ => hostData_of_out_of_range,
    fun _ => s32_u32,
    fun v => ⟨u32_two_pow_add v, toNat_u32 v⟩,
    fun _ => readResult_value_of_valid,
    fun _ => readResult_value_of_not_valid,
    fun p => ⟨neg_two_pow_le_s32 p, s32_le p⟩⟩

end Sys2Proof.Machine
end

section
/-!
PROOFS. The round trip of encoder and decoder (30_encoding.md sections 2 and 3): every instruction has one encoded form,
and every form that decodes is the one of its instruction.
-/

namespace Sys2Proof.Machine

/-! Command words. -/

/-- A command with no byte operand is encoded by its opcode alone (30_encoding.md R55). -/
theorem encode_of_plainCommand {op : Byte} {i : Instr} (h : plainCommand op = some i) :
    encode i = .command (commandWord op 0#8) := by
  unfold plainCommand at h
  split_ifs at h with hop hop hop hop hop hop
  all_goals
    obtain rfl := Option.some.inj h
    rw [hop]
    rfl

/-- The word of a command with no byte operand decodes to the command. -/
theorem decodeCommand_of_plainCommand {op : Byte} {i : Instr} (h : plainCommand op = some i) :
    decodeCommand (commandWord op 0#8) = .ok i := by
  obtain ⟨hop, hbyte, hrsvd⟩ := commandWord_fields op 0#8
  exact decodeCommand_ok_iff.2 ⟨⟨hrsvd, .inr hbyte⟩, .inr (hop.symm ▸ h)⟩

/-- The word of CRC_UPDATE decodes to it, with its operand. -/
theorem decodeCommand_update (b : Byte) : decodeCommand (commandWord 0x02#8 b) = .ok (.crcUpdate b) := by
  obtain ⟨hop, hbyte, hrsvd⟩ := commandWord_fields 0x02#8 b
  exact decodeCommand_ok_iff.2 ⟨⟨hrsvd, .inl hop⟩, .inl ⟨hop, by rw [hbyte]⟩⟩

/-- A word whose RSVD is 0 is the command word of its other two fields. -/
theorem commandWord_of_rsvd {w : Word} (hrsvd : rsvdField w = 0#16) : commandWord (opField w) (byteField w) = w := by
  rw [commandWord, ← hrsvd, commandFields_append]

/-- A command word that decodes is the encoded form of its instruction. -/
theorem encode_of_decodeCommand {w : Word} {i : Instr} (h : decodeCommand w = .ok i) : encode i = .command w := by
  obtain ⟨hrsvd, ⟨hop, rfl⟩ | ⟨-, hbyte, plain⟩⟩ := decodeCommand_ok h
  · rw [encode, ← hop, commandWord_of_rsvd hrsvd]
  · rw [encode_of_plainCommand plain, ← hbyte, commandWord_of_rsvd hrsvd]

/-! Frames. -/

/-- Everything a request frame's decoding can give (30_encoding.md R59, R61, R63). -/
theorem decodeRequest_ok_iff {f : FrameWord} {i : Instr} :
    decodeRequest f = .ok i ↔
      (∃ id addr crc, i = .readReq id addr crc ∧ f = frameWord id Config.fcRead addr Config.readLenIndicator crc) ∨
      (∃ id addr data crc, i = .writeReq id addr data crc ∧ f = frameWord id Config.fcWrite addr data crc) := by
  constructor
  · intro h
    have fields := frameFields_append f
    unfold decodeRequest at h
    split_ifs at h with read write
    · rw [read.1, read.2] at fields
      exact .inl ⟨_, _, _, (Except.ok.inj h).symm, fields.symm⟩
    · rw [write] at fields
      exact .inr ⟨_, _, _, _, (Except.ok.inj h).symm, fields.symm⟩
  · rintro (⟨id, addr, crc, rfl, rfl⟩ | ⟨id, addr, data, crc, rfl, rfl⟩)
    · obtain ⟨hid, hfc, haddr, hpayload, hcrc⟩ := frameWord_fields id Config.fcRead addr Config.readLenIndicator crc
      rw [decodeRequest, if_pos ⟨hfc, hpayload⟩, hid, haddr, hcrc]
    · obtain ⟨hid, hfc, haddr, hpayload, hcrc⟩ := frameWord_fields id Config.fcWrite addr data crc
      have notRead : Config.fcWrite ≠ Config.fcRead := by decide
      rw [decodeRequest, if_neg (fun read => notRead (hfc.symm.trans read.1)), if_pos hfc, hid, haddr, hpayload, hcrc]

/-- The fields of a response frame word (30_encoding.md R60). -/
theorem responseWord_fields (header payload : Word) (crc : Half) :
    (header ++ payload ++ crc).extractLsb' 48 32 = header ∧
      (header ++ payload ++ crc).extractLsb' 16 32 = payload ∧
      (header ++ payload ++ crc).extractLsb' 0 16 = crc :=
  ⟨(extract_append_high _ crc 32 32).trans ((extract_append_high header payload 0 32).trans (extract_whole header)),
    (extract_append_high _ crc 0 32).trans (extract_append_low header payload),
    extract_append_low _ crc⟩

/-- A response frame word is its three fields laid end to end (30_encoding.md R60). -/
theorem responseFields_append (f : FrameWord) :
    f.extractLsb' 48 32 ++ f.extractLsb' 16 32 ++ f.extractLsb' 0 16 = f := by
  have upper := extract_append_extract f 32 32 16
  have whole := extract_append_extract f 64 16 0
  exact (congrArg (· ++ f.extractLsb' 0 16) upper).trans (whole.trans (extract_whole f))

/-! The round trip. -/

theorem decode_encode (i : Instr) : decode (encode i) = .ok i := by
  cases i with
  | nop | crcInit | encRead | encWrite | send | recv => exact decodeCommand_of_plainCommand rfl
  | crcUpdate b => exact decodeCommand_update b
  | readReq id addr crc => exact decodeRequest_ok_iff.2 (.inl ⟨id, addr, crc, rfl, rfl⟩)
  | writeReq id addr data crc => exact decodeRequest_ok_iff.2 (.inr ⟨id, addr, data, crc, rfl, rfl⟩)
  | response header payload crc =>
    obtain ⟨hheader, hpayload, hcrc⟩ := responseWord_fields header payload crc
    rw [encode, decode, decodeResponse, hheader, hpayload, hcrc]
  | rxByte b => rfl
  | rxEnd k => rfl
  | xportErr => rfl

theorem encode_of_decode {e : Encoded} {i : Instr} (h : decode e = .ok i) : encode i = e := by
  cases e with
  | command w => exact encode_of_decodeCommand h
  | request f =>
    obtain ⟨id, addr, crc, rfl, rfl⟩ | ⟨id, addr, data, crc, rfl, rfl⟩ := decodeRequest_ok_iff.1 h
    · rfl
    · rfl
  | response f =>
    obtain rfl := Except.ok.inj h
    rw [decodeResponse, encode, responseFields_append]
  | rxByte b | rxEnd k | xportErr =>
    obtain rfl := Except.ok.inj h
    rfl

/-- Two rows with one opcode are one row. -/
theorem commandRow_eq_of_opcode : ∀ r₁ ∈ commandRows, ∀ r₂ ∈ commandRows,
    opField r₁.pattern = opField r₂.pattern → r₁ = r₂ := by
  decide

/-! The obligations. -/

/-- Settles O1: a case for each row, by the fields of the word the encoder builds. -/
theorem decodeOfEncodeIsTheInstruction : Obligations.DecodeOfEncodeIsTheInstruction := decode_encode

/-- Settles O2: a case for each channel, by the word being its own fields laid end to end. -/
theorem encodeOfDecodeIsTheForm : Obligations.EncodeOfDecodeIsTheForm := fun _ _ h => encode_of_decode h

/-- Settles O4: a row that selects a word has the word's opcode, and no two rows share one. -/
theorem noTwoCommandRowsOverlap : Obligations.NoTwoCommandRowsOverlap := by
  intro w r₁ hr₁ r₂ hr₂ selects₁ selects₂
  obtain ⟨-, hop₁⟩ := (selects_iff hr₁ w).1 selects₁
  obtain ⟨-, hop₂⟩ := (selects_iff hr₂ w).1 selects₂
  exact commandRow_eq_of_opcode r₁ hr₁ r₂ hr₂ (hop₁.symm.trans hop₂)

/-- Settles O5: each word is a literal, which the decoder evaluates. -/
theorem writtenOutWordsDecode : Obligations.WrittenOutWordsDecode := by
  unfold Obligations.WrittenOutWordsDecode
  decide

end Sys2Proof.Machine
end

section
/-!
PROOFS. Single steps (00_scope.md R11, 20_memory.md R41 to R46): what a step does with each input, when it stops, and
the registers a host access reads and writes.
-/

namespace Sys2Proof.Machine

/-! What every instruction does to a state, and that none of them stops. -/

section
variable (s : State)

@[simp] theorem exec_readReq (id : Byte) (addr crc : Half) :
    exec (.readReq id addr crc) s = .next (buildRequest .read { s with argId := id, argAddr := addr }) := by
  simp [exec, execReadReq, writeReg]

@[simp] theorem exec_writeReq (id : Byte) (addr : Half) (data : Word) (crc : Half) :
    exec (.writeReq id addr data crc) s =
      .next (buildRequest .write { s with argId := id, argAddr := addr, argData := data }) := by
  simp [exec, execWriteReq, writeReg]

@[simp] theorem exec_response (header payload : Word) (crc : Half) :
    exec (.response header payload crc) s =
      .next (endRead .data ((responseBytes header payload crc).foldl receiveByte s)) := rfl

end

/-- No instruction stops the block (60_exceptions.md R109). -/
theorem exec_answers_next (i : Instr) (s : State) : ∃ t, exec i s = .next t := by
  cases i <;> exact ⟨_, rfl⟩

/-! Inputs and the instructions they hold. -/

/-- An input that holds an encoded form is the one that presents it. -/
theorem presenting_of_encoded {x : Input} {e : Encoded} (h : x.encoded = some e) : x = Input.presenting e := by
  cases x with
  | memWrite off width v =>
    rw [Input.encoded] at h
    split at h
    · next reached =>
      obtain ⟨rfl, rfl⟩ := accessed_eq_some reached
      obtain rfl := Option.some.inj h
      rfl
    · cases h
  | requestFrame f | responseFrame f | rxByte b | rxEnd k | xportErr =>
    obtain rfl := Option.some.inj h
    rfl
  | memRead off width | reset => cases h

/-- The host's or transport's input for an instruction runs it. -/
theorem performInput_hostCommand (i : Instr) (s : State) : performInput (hostCommand i) s = exec i s :=
  performInput_presenting (decode_encode i) s

/-- `WR` of a register other than CMD writes it (30_encoding.md R65). -/
theorem performInput_hostWR {r : Reg} (hr : r ≠ .cmd) (v : Word) (s : State) :
    performInput (hostWR r v) s = .next (writeReg r v s) :=
  performInput_memWrite (accessed_offset r) hr s

/-- Everything one performed input that answers a next state can have done: run the instruction it presents, raise
CmdError, serve a host read or a host write, or reset. -/
theorem performInput_next_cases {x : Input} {s t : State} (h : performInput x s = .next t) :
    (∃ i, x = hostCommand i ∧ exec i s = .next t) ∨
    t = raiseCmdError s ∨
    (∃ v, t = returnToHost v s) ∨
    (∃ r v, x = hostWR r v ∧ t = writeReg r v s) ∨
    (x = .reset ∧ t = assertReset s) := by
  obtain ⟨e, i, holds, decodes, run⟩ | ⟨w, r, -, -, rfl⟩ | ⟨off, width, r, rfl, -, rfl⟩ |
    ⟨off, width, v, r, rfl, reached, -, rfl⟩ | ⟨rfl, rfl⟩ := performInput_cases h
  · refine .inl ⟨i, ?_, run⟩
    rw [hostCommand, encode_of_decode decodes]
    exact presenting_of_encoded holds
  · exact .inr (.inl rfl)
  · exact .inr (.inr (.inl ⟨_, rfl⟩))
  · obtain ⟨rfl, rfl⟩ := accessed_eq_some reached
    exact .inr (.inr (.inr (.inl ⟨r, v, rfl, rfl⟩)))
  · exact .inr (.inr (.inr (.inr ⟨rfl, rfl⟩)))

/-! Accesses that reach no register. -/

/-- Every register is at a multiple of 4 (10_state.md R32). -/
theorem offset_aligned (r : Reg) : r.offset.toNat % 4 = 0 := by
  cases r with
  | tx i => revert i; decide
  | rx i => revert i; decide
  | _ => decide

/-- An access of another width, misaligned or at an offset of no register reaches none (20_memory.md R42). -/
theorem accessed_eq_none {off : Offset} {width : Nat}
    (bad : width ≠ 4 ∨ off.toNat % 4 ≠ 0 ∨ ∀ r : Reg, r.offset ≠ off) : accessed off width = none := by
  cases reached : accessed off width with
  | none => rfl
  | some r =>
    obtain ⟨hwidth, hoff⟩ := accessed_eq_some reached
    obtain wrongWidth | misaligned | unmapped := bad
    · exact absurd hwidth wrongWidth
    · exact absurd (hoff ▸ offset_aligned r) misaligned
    · exact absurd hoff (unmapped r)

theorem performInput_memRead_of_unreached {off : Offset} {width : Nat} (h : accessed off width = none) (s : State) :
    performInput (.memRead off width) s = .fault (.busFault off) := by
  rw [performInput_of_plain rfl, performPlain, hostRead, h]

theorem performInput_memWrite_of_unreached {off : Offset} {width : Nat} (h : accessed off width = none) (v : Word)
    (s : State) : performInput (.memWrite off width v) s = .fault (.busFault off) := by
  have plain : (Input.memWrite off width v).encoded = none := by simp [Input.encoded, h]
  rw [performInput_of_plain plain, performPlain, hostWrite, h]

/-! Conforming inputs. -/

/-- An encoded form that is no request frame is performed to a next state, decoded or rejected. -/
theorem performEncoded_answers_next {e : Encoded} (s : State)
    (accepted : ∀ f, e = .request f → ∃ i, decode e = .ok i) : ∃ t, performEncoded e s = .next t := by
  cases hd : decode e with
  | ok i =>
    rw [performEncoded_ok hd]
    exact exec_answers_next i s
  | error r =>
    rw [performEncoded_error hd]
    cases e with
    | request f =>
      obtain ⟨i, decodes⟩ := accepted f rfl
      rw [hd] at decodes
      cases decodes
    | _ => exact ⟨_, rfl⟩

/-- A host access that reaches a register is performed to a next state. -/
theorem hostAccess_answers_next {off : Offset} {width : Nat} (reached : (accessed off width).isSome) (v : Word)
    (s : State) :
    (∃ t, performInput (.memRead off width) s = .next t) ∧ ∃ t, performInput (.memWrite off width v) s = .next t := by
  obtain ⟨r, hr⟩ := Option.isSome_iff_exists.1 reached
  obtain ⟨rfl, rfl⟩ := accessed_eq_some hr
  refine ⟨⟨_, performInput_memRead hr s⟩, ?_⟩
  by_cases command : r = .cmd
  · subst command
    have command : (Input.memWrite Reg.cmd.offset 4 v).encoded = some (.command v) := encoded_presenting (.command v)
    rw [performInput_of_encoded command]
    exact performEncoded_answers_next s nofun
  · exact ⟨_, performInput_memWrite hr command s⟩

theorem performInput_of_conforming {x : Input} (conforming : x.conforming = true) (s : State) :
    ∃ t, performInput x s = .next t := by
  cases x with
  | memRead off width => exact (hostAccess_answers_next conforming 0#32 s).1
  | memWrite off width v => exact (hostAccess_answers_next conforming v s).2
  | requestFrame f =>
    rw [performInput_of_encoded rfl]
    refine performEncoded_answers_next s fun _ _ => ?_
    cases hd : decode (.request f) with
    | ok i => exact ⟨i, rfl⟩
    | error r => simp [Input.conforming, hd, Except.toOption] at conforming
  | responseFrame f | rxByte b | rxEnd k | xportErr =>
    rw [performInput_of_encoded rfl]
    exact performEncoded_answers_next s nofun
  | reset => exact ⟨_, performInput_of_plain rfl s⟩

/-! The sticky flags. -/

/-- Each flag set in `s` is set in `t`. -/
def FlagsKept (s t : State) : Prop :=
  (s.cmdErr = true → t.cmdErr = true) ∧ (s.rxOverrun = true → t.rxOverrun = true) ∧
    (s.stray = true → t.stray = true)

theorem FlagsKept.refl (s : State) : FlagsKept s s := ⟨id, id, id⟩

theorem FlagsKept.trans {s t u : State} (h : FlagsKept s t) (h' : FlagsKept t u) : FlagsKept s u := by
  obtain ⟨cmdErr, overrun, stray⟩ := h
  obtain ⟨cmdErr', overrun', stray'⟩ := h'
  exact ⟨cmdErr' ∘ cmdErr, overrun' ∘ overrun, stray' ∘ stray⟩

theorem FlagsKept.raiseCmdError (s : State) : FlagsKept s (raiseCmdError s) := ⟨fun _ => rfl, id, id⟩

theorem FlagsKept.raiseOverrun (s : State) : FlagsKept s (raiseOverrun s) := ⟨id, fun _ => rfl, id⟩

theorem FlagsKept.raiseStray (s : State) : FlagsKept s (raiseStray s) := ⟨id, id, fun _ => rfl⟩

theorem FlagsKept.buildRequest (q : ReqKind) (s : State) : FlagsKept s (buildRequest q s) := by
  obtain ⟨-, h⟩ | ⟨-, -, h⟩ := buildRequest_cases q s <;> rw [h]
  · exact .raiseCmdError s
  · exact .refl s

theorem FlagsKept.sendFrame (s : State) : FlagsKept s (sendFrame s) := by
  obtain ⟨-, h⟩ | ⟨-, h⟩ := sendFrame_cases s <;> rw [h]
  · exact .refl s
  · exact .raiseCmdError s

theorem FlagsKept.openRead (s : State) : FlagsKept s (openRead s) := by
  obtain ⟨-, h⟩ | ⟨-, h⟩ := openRead_cases s <;> rw [h]
  · exact .refl s
  · exact .raiseCmdError s

theorem FlagsKept.receiveByte (s : State) (b : Byte) : FlagsKept s (receiveByte s b) := by
  obtain ⟨-, _, h⟩ | ⟨-, -, h⟩ | ⟨-, h⟩ := receiveByte_cases s b <;> rw [h]
  · exact .refl s
  · exact .raiseOverrun s
  · exact .raiseStray s

theorem FlagsKept.foldl_receiveByte (s : State) (bs : List Byte) : FlagsKept s (bs.foldl Machine.receiveByte s) := by
  induction bs generalizing s with
  | nil => exact .refl s
  | cons b bs ih => exact (FlagsKept.receiveByte s b).trans (ih _)

theorem FlagsKept.settleOutcome (e : ErrCode) (s : State) : FlagsKept s (settleOutcome e s) := by
  obtain ⟨-, h⟩ | ⟨-, h⟩ := settleOutcome_cases e s <;> rw [h] <;> simp [FlagsKept]

theorem FlagsKept.endRead (k : RxEndKind) (s : State) : FlagsKept s (endRead k s) := by
  obtain ⟨-, h⟩ | ⟨-, h⟩ := endRead_cases k s <;> rw [h]
  · exact FlagsKept.settleOutcome _ { s with crcOk := crcMatch s.rxCnt.val s.rx }
  · exact .raiseStray s

theorem FlagsKept.transportException (s : State) : FlagsKept s (transportException s) := by
  obtain ⟨-, h⟩ | ⟨-, -, h⟩ := transportException_cases s <;> rw [h]
  · exact .refl s
  · exact .raiseStray s

/-- No instruction clears a flag (60_exceptions.md R115). -/
theorem FlagsKept.of_exec {i : Instr} {s t : State} (h : exec i s = .next t) : FlagsKept s t := by
  cases i with
  | nop | crcInit | crcUpdate b => obtain rfl := Host.Outcome.next.inj h; exact .refl s
  | encRead => obtain rfl := Host.Outcome.next.inj h; exact .buildRequest .read s
  | encWrite => obtain rfl := Host.Outcome.next.inj h; exact .buildRequest .write s
  | send => obtain rfl := Host.Outcome.next.inj h; exact .sendFrame s
  | recv => obtain rfl := Host.Outcome.next.inj h; exact .openRead s
  | readReq id addr crc =>
    obtain rfl := Host.Outcome.next.inj ((exec_readReq s id addr crc).symm.trans h)
    exact FlagsKept.buildRequest .read { s with argId := id, argAddr := addr }
  | writeReq id addr data crc =>
    obtain rfl := Host.Outcome.next.inj ((exec_writeReq s id addr data crc).symm.trans h)
    exact FlagsKept.buildRequest .write { s with argId := id, argAddr := addr, argData := data }
  | response header payload crc =>
    obtain rfl := Host.Outcome.next.inj h
    exact (FlagsKept.foldl_receiveByte s _).trans (.endRead .data _)
  | rxByte b => obtain rfl := Host.Outcome.next.inj h; exact .receiveByte s b
  | rxEnd k => obtain rfl := Host.Outcome.next.inj h; exact .endRead k s
  | xportErr => obtain rfl := Host.Outcome.next.inj h; exact .transportException s

/-- A host write of a register other than FLAGS clears no flag. -/
theorem FlagsKept.writeReg {r : Reg} (hr : r ≠ .flags) (v : Word) (s : State) : FlagsKept s (writeReg r v s) := by
  obtain h | ⟨flags, -⟩ | ⟨-, h⟩ | ⟨-, h⟩ | ⟨-, h⟩ := writeReg_cases r v s
  · rw [h]; exact .refl s
  · exact absurd flags hr
  all_goals rw [h]; exact .refl s

/-! The fields of the FLAGS word (10_state.md R30). -/

section
variable (s : State)

theorem flagsWord_cmdErr : (flagsWord s).getLsbD 0 = s.cmdErr :=
  getLsbD_of_extract (extract_append_low _ (bit s.cmdErr))

theorem flagsWord_rxOverrun : (flagsWord s).getLsbD 1 = s.rxOverrun :=
  getLsbD_of_extract ((extract_append_high _ (bit s.cmdErr) 0 1).trans (extract_append_low _ (bit s.rxOverrun)))

theorem flagsWord_stray : (flagsWord s).getLsbD 2 = s.stray :=
  getLsbD_of_extract ((extract_append_high _ (bit s.cmdErr) 1 1).trans
    ((extract_append_high _ (bit s.rxOverrun) 0 1).trans (extract_append_low _ (bit s.stray))))

theorem flagsWord_reserved : (flagsWord s).extractLsb' 3 29 = 0#29 :=
  (extract_append_high _ (bit s.cmdErr) 2 29).trans
    ((extract_append_high _ (bit s.rxOverrun) 1 29).trans
      ((extract_append_high 0#29 (bit s.stray) 0 29).trans (extract_whole 0#29)))

end

/-! The obligations. -/

/-- Settles O8: a reset step is `assertReset` of the state that has taken the input. -/
theorem resetInputRestoresTheResetState : Obligations.ResetInputRestoresTheResetState :=
  fun _ _ h => step_reset h

/-- Settles O9: the next input presents the form, which the step decodes and runs. -/
theorem stepRunsTheDecodedInstruction : Obligations.StepRunsTheDecodedInstruction := by
  intro s e i rest pending decodes
  rw [step_cons pending, performInput_presenting decodes]

/-- Settles O10: with no input there is nothing to perform. -/
theorem stepWaitsWhenNothingIsPending : Obligations.StepWaitsWhenNothingIsPending := fun _ h => step_nil h

/-- Settles O11: such an access reaches no register, so the read or write is the fault. -/
theorem badHostAccessIsBusFault : Obligations.BadHostAccessIsBusFault := by
  intro s off width v rest bad
  have unreached := accessed_eq_none bad
  refine ⟨fun read => ?_, fun write => ?_⟩
  · rw [step_cons read, performInput_memRead_of_unreached unreached]
  · rw [step_cons write, performInput_memWrite_of_unreached unreached]

/-- Settles O12: a conforming input reaches a register, holds an instruction or a command word, or is reset, and each of
them is performed to a next state. -/
theorem conformingInputNeverStops : Obligations.ConformingInputNeverStops := by
  intro s x rest pending conforming
  rw [step_cons pending]
  exact performInput_of_conforming conforming _

/-- Settles O13: the offsets are those of `Reg.offset`, and the reached register is `accessed_offset` with its
converse. -/
theorem registerMapIsComplete : Obligations.RegisterMapIsComplete := by
  refine ⟨rfl, rfl, rfl, rfl, rfl, rfl, rfl, rfl, by decide, by decide, fun off r => ⟨fun reached => ?_, ?_⟩⟩
  · exact (accessed_eq_some reached).2
  · rintro rfl
    exact accessed_offset r

/-- Settles O14: a read returns `readReg` of the register, whose value for each register is its definition. -/
theorem hostReadReturnsTheRegister : Obligations.HostReadReturnsTheRegister := by
  intro s r rest read
  rw [step_memRead_offset read]
  cases r <;> rfl

/-- Settles O16: the bits of `flagsWord`, and a write of FLAGS is `clearFlags`. -/
theorem flagsReadAndWriteOneToClear : Obligations.FlagsReadAndWriteOneToClear :=
  ⟨fun s => ⟨flagsWord_cmdErr s, flagsWord_rxOverrun s, flagsWord_stray s, flagsWord_reserved s⟩,
    fun _ _ _ write => step_memWrite_offset (r := .flags) (by decide) write⟩

/-- Settles O17: what the step did is an instruction, a CmdError, a host read or a write of another register, and each
keeps the flags. -/
theorem flagsStaySet : Obligations.FlagsStaySet := by
  intro s t x rest pending stepped notReset notFlags
  rw [step_cons pending] at stepped
  obtain ⟨i, -, run⟩ | rfl | ⟨v, rfl⟩ | ⟨r, v, rfl, rfl⟩ | ⟨rfl, -⟩ := performInput_next_cases stepped
  · have kept : FlagsKept { s with inputs := rest } t := .of_exec run
    exact kept
  · exact FlagsKept.raiseCmdError { s with inputs := rest }
  · exact FlagsKept.refl s
  · have other : r ≠ .flags := by
      rintro rfl
      exact notFlags v rfl
    exact FlagsKept.writeReg other v { s with inputs := rest }
  · exact absurd rfl notReset

/-- Settles O18: a write of an argument register is `writeReg`, which cuts the word to its low bits. -/
theorem argumentRegisterWrites : Obligations.ArgumentRegisterWrites := fun _ _ _ =>
  ⟨step_memWrite_offset (r := .argId) (by decide), step_memWrite_offset (r := .argAddr) (by decide),
    step_memWrite_offset (r := .argData) (by decide)⟩

end Sys2Proof.Machine
end

section
/-!
PROOFS. Runs (20_memory.md R45): a run goes on from what its next input gives, and a run over inputs that all act in one
way folds that action.
-/

namespace Sys2Proof.Machine

/-- `s` with these inputs to come. -/
def State.setInputs (s : State) (xs : List Input) : State := { s with inputs := xs }

section
variable (s : State)

@[simp] theorem setInputs_inputs (xs : List Input) : (s.setInputs xs).inputs = xs := rfl

@[simp] theorem setInputs_self : s.setInputs s.inputs = s := rfl

@[simp] theorem setInputs_setInputs (xs ys : List Input) : (s.setInputs xs).setInputs ys = s.setInputs ys := rfl

end

/-! Runs, one input after the other. -/

/-- A run whose next input is performed to a next state goes on from it. -/
theorem runSteps_cons {n : Nat} {s t : State} {x : Input} {rest : List Input} (pending : s.inputs = x :: rest)
    (performed : performInput x (s.setInputs rest) = .next t) : runSteps (n + 1) s = runSteps n t :=
  runSteps_succ_of_step ((step_cons pending).trans performed)

/-- A run over inputs that all act in one way, whatever is still to come, folds that action over them. -/
theorem runSteps_map {α : Type} {input : α → Input} {act : State → α → State}
    (performs : ∀ a s, performInput (input a) s = .next (act s a))
    (blind : ∀ s a xs, act (s.setInputs xs) a = (act s a).setInputs xs)
    {s : State} {as : List α} {rest : List Input} (pending : s.inputs = as.map input ++ rest) :
    runSteps as.length s = .next (as.foldl act (s.setInputs rest)) := by
  induction as generalizing s with
  | nil =>
    have taken : rest = s.inputs := pending.symm
    rw [List.foldl_nil, taken, setInputs_self, List.length_nil, runSteps_zero]
  | cons a as ih =>
    rw [List.length_cons, runSteps_cons pending (performs a _), ih (by rw [blind, setInputs_inputs]; rfl),
      List.foldl_cons, blind, setInputs_setInputs, ← blind]

end Sys2Proof.Machine
end

section
/-!
PROOFS. The CRC generator as a whole (40_crc.md): the consequences of its definition, the CRC_BYTES run, and that no other
instruction meets the accumulator.
-/

namespace Sys2Proof.Machine

/-! The consequences of the definition (40_crc.md section 1). -/

/-- Each iteration of the byte step can be undone: the low bit shifted out is the high bit of what is left, since the
polynomial has that bit and a shifted word has not. -/
def crcUnbit (d : Half) : Half :=
  if d.getLsbD 15 then ((d ^^^ Config.crcPolyReflected) <<< 1) ||| 1#16 else d <<< 1

/-- The word whose low bit was shifted out is that bit below what was left. -/
theorem shift_back (c : Half) : (c >>> 1) <<< 1 ||| (if c.getLsbD 0 then 1#16 else 0#16) = c := by
  ext i hi
  cases i with
  | zero => cases h : c.getLsbD 0 <;> simp_all
  | succ i => cases h : c.getLsbD 0 <;> simp_all [Nat.add_comm]

theorem crcUnbit_crcBit (c : Half) : crcUnbit (crcBit c) = c := by
  have back := shift_back c
  have poly : Config.crcPolyReflected.getLsbD 15 = true := by decide
  have shifted : (c >>> 1).getLsbD 15 = false := by simp
  cases low : c.getLsbD 0 with
  | true =>
    have high : ((c >>> 1) ^^^ Config.crcPolyReflected).getLsbD 15 = true := by
      rw [BitVec.getLsbD_xor, shifted, poly, Bool.false_xor]
    rw [low, if_pos rfl] at back
    rw [crcBit, if_pos low, crcUnbit, if_pos high, BitVec.xor_assoc, BitVec.xor_self, BitVec.xor_zero, back]
  | false =>
    rw [low, if_neg (by decide), BitVec.or_zero] at back
    rw [crcBit, low, if_neg (by decide), crcUnbit, shifted, if_neg (by decide), back]

theorem crcBit_bijective : Function.Bijective crcBit :=
  Finite.injective_iff_bijective.1 (Function.LeftInverse.injective crcUnbit_crcBit)

/-- XORing a byte in can be undone by XORing it in again. -/
theorem xor_byte_bijective (b : Byte) : Function.Bijective fun c : Half => c ^^^ zext16 b :=
  Function.Involutive.bijective fun c => by rw [BitVec.xor_assoc, BitVec.xor_self, BitVec.xor_zero]

theorem crcStep_bijective (b : Byte) : Function.Bijective fun c => crcStep c b := by
  have iterated : (fun c => crcStep c b) = crcBit^[8] ∘ fun c : Half => c ^^^ zext16 b := by
    funext c
    rw [crcStep, crcBits_eq_iterate, Function.comp_apply]
  rw [iterated]
  exact (crcBit_bijective.iterate 8).comp (xor_byte_bijective b)

/-- Appending a byte is one more step (40_crc.md R69). -/
theorem crc16_append_byte (bs : List Byte) (b : Byte) : crc16 (bs ++ [b]) = crcStep (crc16 bs) b := by
  rw [crc16, List.foldl_append, List.foldl_cons, List.foldl_nil, crc16]

/-! The CRC_BYTES run (30_encoding.md R66(a)). -/

/-- `s` with this accumulator. -/
def State.setCrc (s : State) (c : Half) : State := { s with crc := c }

section
variable (s : State)

@[simp] theorem setInputs_crc (xs : List Input) : (s.setInputs xs).crc = s.crc := rfl

@[simp] theorem setCrc_crc (c : Half) : (s.setCrc c).crc = c := rfl

@[simp] theorem setCrc_self : s.setCrc s.crc = s := rfl

@[simp] theorem setCrc_setCrc (c d : Half) : (s.setCrc c).setCrc d = s.setCrc d := rfl

end

/-- CRC_UPDATE for each byte folds the bytes into the accumulator and changes nothing else. -/
theorem foldl_crcUpdate (s : State) (bs : List Byte) :
    bs.foldl (fun t b => t.setCrc (crcStep t.crc b)) s = s.setCrc (bs.foldl crcStep s.crc) := by
  induction bs generalizing s with
  | nil => rfl
  | cons b bs ih => rw [List.foldl_cons, ih, setCrc_setCrc, setCrc_crc, List.foldl_cons]

/-- A run of CRC_UPDATE commands. -/
theorem runSteps_crcUpdates {s : State} {bs : List Byte} {rest : List Input}
    (pending : s.inputs = bs.map (fun b => hostCommand (.crcUpdate b)) ++ rest) :
    runSteps bs.length s = .next ((s.setInputs rest).setCrc (bs.foldl crcStep s.crc)) := by
  rw [runSteps_map (act := fun t b => t.setCrc (crcStep t.crc b))
    (fun b t => performInput_hostCommand (.crcUpdate b) t) (fun _ _ _ => rfl) pending, foldl_crcUpdate, setInputs_crc]

/-! Instructions that do not meet the accumulator (40_crc.md R74). -/

/-- `f` does the same whatever the accumulator holds, and hands it on. -/
def CrcBlind (f : State → State) : Prop := ∀ s c, f (s.setCrc c) = (f s).setCrc c

theorem CrcBlind.crc_eq {f : State → State} (blind : CrcBlind f) (s : State) : (f s).crc = s.crc := by
  have same := congrArg State.crc (blind s s.crc)
  rwa [setCrc_self, setCrc_crc] at same

theorem CrcBlind.comp {f g : State → State} (hf : CrcBlind f) (hg : CrcBlind g) : CrcBlind fun s => f (g s) :=
  fun s c => (congrArg f (hg s c)).trans (hf (g s) c)

theorem CrcBlind.foldl {α : Type} {act : State → α → State} (blind : ∀ a, CrcBlind (act · a)) (as : List α) :
    CrcBlind (as.foldl act) := by
  induction as with
  | nil => exact fun _ _ => rfl
  | cons a as ih => exact ih.comp (blind a)

theorem CrcBlind.ite {p : State → Prop} [DecidablePred p] {f g : State → State}
    (hp : ∀ s c, p (s.setCrc c) ↔ p s) (hf : CrcBlind f) (hg : CrcBlind g) :
    CrcBlind fun s => if p s then f s else g s := fun s c => by
  simp only [hp]
  split
  · exact hf s c
  · exact hg s c

theorem crcBlind_buildRequest (q : ReqKind) : CrcBlind (buildRequest q) :=
  CrcBlind.ite (fun _ _ => Iff.rfl) (fun _ _ => rfl) (by cases q <;> exact fun _ _ => rfl)

theorem crcBlind_sendFrame : CrcBlind sendFrame :=
  CrcBlind.ite (fun _ _ => Iff.rfl) (fun _ _ => rfl) (fun _ _ => rfl)

theorem crcBlind_openRead : CrcBlind openRead :=
  CrcBlind.ite (fun _ _ => Iff.rfl) (fun _ _ => rfl) (fun _ _ => rfl)

theorem crcBlind_receiveByte (b : Byte) : CrcBlind (receiveByte · b) := by
  intro s c
  change receiveByte (s.setCrc c) b = (receiveByte s b).setCrc c
  obtain ⟨awaiting, room, stored⟩ | ⟨awaiting, full, dropped⟩ | ⟨notAwaiting, stray⟩ := receiveByte_cases s b
  · rw [stored, receiveByte_of_room (s := s.setCrc c) awaiting room]
    rfl
  · rw [dropped, receiveByte_of_full (s := s.setCrc c) awaiting full]
    rfl
  · rw [stray, receiveByte_of_not_awaiting (s := s.setCrc c) notAwaiting]
    rfl

theorem crcBlind_settleOutcome (e : ErrCode) : CrcBlind (settleOutcome e) := by
  refine CrcBlind.ite (fun _ _ => Iff.rfl) (fun s c => ?_) (fun _ _ => rfl)
  cases kind : s.kind <;> simp only [enterDecoded, State.setCrc, kind]

theorem crcBlind_endRead (k : RxEndKind) : CrcBlind (endRead k) :=
  CrcBlind.ite (fun _ _ => Iff.rfl) (fun s c => crcBlind_settleOutcome _ { s with crcOk := crcMatch s.rxCnt.val s.rx } c)
    (fun _ _ => rfl)

theorem crcBlind_transportException : CrcBlind transportException :=
  CrcBlind.ite (fun _ _ => Iff.rfl) (fun _ _ => rfl) (fun _ _ => rfl)

/-- Every instruction but the two CRC commands is an operation that does not meet the accumulator. -/
theorem exec_crcBlind {i : Instr} (notInit : i ≠ .crcInit) (notUpdate : ∀ b, i ≠ .crcUpdate b) :
    ∃ f, CrcBlind f ∧ ∀ s, exec i s = .next (f s) := by
  cases i with
  | nop => exact ⟨id, fun _ _ => rfl, exec_nop⟩
  | crcInit => exact absurd rfl notInit
  | crcUpdate b => exact absurd rfl (notUpdate b)
  | encRead => exact ⟨_, crcBlind_buildRequest .read, exec_encRead⟩
  | encWrite => exact ⟨_, crcBlind_buildRequest .write, exec_encWrite⟩
  | send => exact ⟨_, crcBlind_sendFrame, exec_send⟩
  | recv => exact ⟨_, crcBlind_openRead, exec_recv⟩
  | readReq id addr crc =>
    have blind : CrcBlind fun s => { s with argId := id, argAddr := addr } := fun _ _ => rfl
    exact ⟨_, (crcBlind_buildRequest .read).comp blind, fun s => exec_readReq s id addr crc⟩
  | writeReq id addr data crc =>
    have blind : CrcBlind fun s => { s with argId := id, argAddr := addr, argData := data } := fun _ _ => rfl
    exact ⟨_, (crcBlind_buildRequest .write).comp blind, fun s => exec_writeReq s id addr data crc⟩
  | response header payload crc =>
    have blind : CrcBlind (List.foldl receiveByte · (responseBytes header payload crc)) :=
      .foldl crcBlind_receiveByte _
    exact ⟨_, (crcBlind_endRead .data).comp blind, fun s => exec_response s header payload crc⟩
  | rxByte b => exact ⟨_, crcBlind_receiveByte b, fun s => exec_rxByte s b⟩
  | rxEnd k => exact ⟨_, crcBlind_endRead k, fun s => exec_rxEnd s k⟩
  | xportErr => exact ⟨_, crcBlind_transportException, exec_xportErr⟩

/-! The obligations. -/

/-- Settles O21: folding a list with one more byte, the byte step as a composition of bijections, and the check values
by evaluation. -/
theorem crcConsequences : Obligations.CrcConsequences :=
  ⟨rfl, crc16_append_byte, crcStep_bijective, by decide, by decide +kernel, by decide +kernel⟩

/-- Settles O25: CRC_INIT, the run of CRC_UPDATE commands and the read of CRC, one after the other. -/
theorem crcBytesMacroReturnsTheCrc : Obligations.CrcBytesMacroReturnsTheCrc := by
  intro s bs rest pending
  rw [runSteps_cons pending (performInput_hostCommand .crcInit _), runSteps_add (runSteps_crcUpdates rfl),
    runSteps_succ_of_step (step_memRead_offset (r := .crc) rfl), runSteps_zero]
  rfl

/-- Settles O26: the instruction is an operation that is blind to the accumulator. -/
theorem crcRegisterIsIndependent : Obligations.CrcRegisterIsIndependent := by
  intro i s t c notInit notUpdate run
  obtain ⟨f, blind, effect⟩ := exec_crcBlind notInit notUpdate
  obtain rfl := Host.Outcome.next.inj ((effect s).symm.trans run)
  exact ⟨(effect _).trans (congrArg _ (blind s c)), blind.crc_eq s⟩

end Sys2Proof.Machine
end

section
/-!
PROOFS. Request frames (30_encoding.md R59, 41_frame_encode.md section 3): the bytes of a frame word and of a built frame,
that built frames are well-formed and give their fields back, and the model's request frame steps (log 5, log 6).
-/

namespace Sys2Proof.Machine

/-! The bytes of a word and of a frame word. -/

/-- A field of a field is a field of the whole. -/
theorem extract_extract {n : Nat} (x : BitVec n) {a m k l : Nat} (inside : k + l ≤ m) :
    (x.extractLsb' a m).extractLsb' k l = x.extractLsb' (a + k) l := by
  ext i hi
  simp only [BitVec.getElem_extractLsb', BitVec.getLsbD_extractLsb', Nat.add_assoc]
  simp only [show k + i < m by omega, decide_true, Bool.true_and]

/-- The bytes of a half, laid end to end, are the half. -/
theorem half2_be16 (v : Half) : half2 (v.extractLsb' 8 8) (v.extractLsb' 0 8) = v :=
  (extract_append_extract v 8 8 0).trans (extract_whole v)

/-- The bytes of a word, laid end to end, are the word. -/
theorem word4_be32 (v : Word) :
    word4 (v.extractLsb' 24 8) (v.extractLsb' 16 8) (v.extractLsb' 8 8) (v.extractLsb' 0 8) = v := by
  have upper := extract_append_extract v 8 8 16
  have middle := extract_append_extract v 16 8 8
  have whole := extract_append_extract v 24 8 0
  rw [word4]
  refine Eq.trans ?_ (whole.trans (extract_whole v))
  refine congrArg (· ++ v.extractLsb' 0 8) (Eq.trans ?_ middle)
  exact congrArg (· ++ v.extractLsb' 8 8) upper

/-- The bytes of a frame word by the fields of a request (30_encoding.md R59). -/
theorem frameBytes_toList_request (f : FrameWord) :
    (frameBytes f).toList =
      f.extractLsb' 72 8 :: f.extractLsb' 64 8 ::
        (be16 (f.extractLsb' 48 16) ++ be32 (f.extractLsb' 16 32) ++ be16 (f.extractLsb' 0 16)) := by
  simp [frameBytes, be16, be32, extract_extract]

/-- The bytes of a frame word by the fields of a response (30_encoding.md R60). -/
theorem frameBytes_toList_response (f : FrameWord) :
    (frameBytes f).toList = responseBytes (f.extractLsb' 48 32) (f.extractLsb' 16 32) (f.extractLsb' 0 16) := by
  simp [frameBytes, responseBytes, be16, be32, extract_extract]

/-- The frame word of a request with the CRC of its other fields holds the frame the block builds
(41_frame_encode.md R76, R77). -/
theorem frameBytes_frameWord (id fc : Byte) (addr : Half) (payload : Word) :
    frameBytes (frameWord id fc addr payload (requestCrc id fc addr payload)) = buildFrame id fc addr payload := by
  obtain ⟨hid, hfc, haddr, hpayload, hcrc⟩ :=
    frameWord_fields id fc addr payload (requestCrc id fc addr payload)
  apply Vector.toList_inj.1
  rw [frameBytes_toList_request, hid, hfc, haddr, hpayload, hcrc]
  rfl

/-! What a built frame gives back. -/

section
variable (id fc : Byte) (addr : Half) (payload : Word)

/-- The CRC of a built frame is computed over its first eight bytes (41_frame_encode.md R77, R83). -/
theorem frameWellFormed_buildFrame : frameWellFormed (buildFrame id fc addr payload) = true :=
  (frameWellFormed_iff _).2 (half2_be16 (requestCrc id fc addr payload)).symm

theorem buildFrame_functionCode : (buildFrame id fc addr payload)[1] = fc := rfl

theorem frameAddr_buildFrame : frameAddr (buildFrame id fc addr payload) = addr := half2_be16 addr

theorem framePayload_buildFrame : framePayload (buildFrame id fc addr payload) = payload := word4_be32 payload

end

/-- The command that builds a request of a kind. -/
def ReqKind.command : ReqKind → Instr
  | .read => .encRead
  | .write => .encWrite

theorem exec_command (q : ReqKind) (s : State) : exec q.command s = .next (buildRequest q s) := by
  cases q <;> rfl

/-- The frame that the command of a kind puts in TX, in a state that may build one, is well-formed. -/
theorem frameWellFormed_buildRequest (q : ReqKind) {s : State} (notSent : s.state ≠ .sent)
    (notAwaiting : s.state ≠ .awaitingResponse) : frameWellFormed (buildRequest q s).tx = true := by
  rw [buildRequest_tx q notSent notAwaiting]
  exact frameWellFormed_buildFrame ..

/-! Host writes of the arguments, as single inputs. -/

section
variable (s : State)

theorem performInput_WR_argId (id : Byte) :
    performInput (hostWR .argId (id.setWidth 32)) s = .next { s with argId := id } := by
  rw [performInput_hostWR (by decide)]
  simp [writeReg]

theorem performInput_WR_argAddr (addr : Half) :
    performInput (hostWR .argAddr (addr.setWidth 32)) s = .next { s with argAddr := addr } := by
  rw [performInput_hostWR (by decide)]
  simp [writeReg]

theorem performInput_WR_argData (data : Word) :
    performInput (hostWR .argData data) s = .next { s with argData := data } :=
  performInput_hostWR (by decide) data s

theorem performInput_command (q : ReqKind) : performInput (hostCommand q.command) s = .next (buildRequest q s) :=
  (performInput_hostCommand q.command s).trans (exec_command q s)

end

/-! The obligations. -/

/-- Settles O29: both commands are `buildRequest`, whose frame is a built one. -/
theorem encodedFramesAreWellFormed : Obligations.EncodedFramesAreWellFormed := fun s notSent notAwaiting =>
  ⟨⟨_, exec_encRead s, frameWellFormed_buildRequest .read notSent notAwaiting⟩,
    ⟨_, exec_encWrite s, frameWellFormed_buildRequest .write notSent notAwaiting⟩⟩

/-- Settles O30: the three steps leave the frame built from the two arguments, which gives its fields back. -/
theorem writeFrameRoundTrip : Obligations.WriteFrameRoundTrip := by
  intro s a p rest notSent notAwaiting pending
  have run : runSteps 3 s =
      .next (buildRequest .write { s with argAddr := a, argData := p, inputs := rest }) := by
    rw [runSteps_cons pending (performInput_WR_argAddr _ a), runSteps_cons rfl (performInput_WR_argData _ p),
      runSteps_cons rfl (performInput_command _ .write), runSteps_zero]
    rfl
  have frame : (buildRequest .write { s with argAddr := a, argData := p, inputs := rest }).tx =
      buildFrame s.argId Config.fcWrite a p := buildRequest_tx .write notSent notAwaiting
  refine ⟨_, run, ?_⟩
  rw [frame, ← half2_eq_shift_or, ← word4_eq_shift_or]
  refine ⟨frameAddr_buildFrame .., framePayload_buildFrame .., fun v low high pattern => ?_⟩
  rw [framePayload_buildFrame]
  exact (congrArg s32 pattern.symm).trans (s32_u32 low high)

/-- Settles O33: a request frame builds from the arguments it stores, and `encCommon` and `raiseCmdError` are written
out. -/
theorem requestFramesSetArgumentsAndBuild : Obligations.RequestFramesSetArgumentsAndBuild := by
  refine ⟨fun s id addr crc notSent notAwaiting => ?read, fun s id addr data crc notSent notAwaiting => ?write,
    fun s id addr data crc inFlight => ⟨?readInFlight, ?writeInFlight⟩⟩
  case read =>
    rw [exec_readReq, buildRequest_of_legal (s := { s with argId := id, argAddr := addr }) notSent notAwaiting]
    rfl
  case write =>
    rw [exec_writeReq,
      buildRequest_of_legal (s := { s with argId := id, argAddr := addr, argData := data }) notSent notAwaiting]
    rfl
  case readInFlight =>
    rw [exec_readReq, buildRequest_of_inFlight (s := { s with argId := id, argAddr := addr }) inFlight, raiseCmdError]
  case writeInFlight =>
    rw [exec_writeReq,
      buildRequest_of_inFlight (s := { s with argId := id, argAddr := addr, argData := data }) inFlight, raiseCmdError]

/-- Settles O34: both sides are `buildRequest` on the state with the frame's fields as its arguments. -/
theorem requestFrameStepIsItsHostSteps : Obligations.RequestFrameStepIsItsHostSteps := by
  refine ⟨fun s id addr crc rest => ?read, fun s id addr data crc rest => ?write⟩
  case read =>
    rw [step_cons rfl, performInput_presenting (decode_encode _), exec_readReq,
      runSteps_cons rfl (performInput_WR_argId _ id), runSteps_cons rfl (performInput_WR_argAddr _ addr),
      runSteps_cons rfl (performInput_command _ .read), runSteps_zero]
    rfl
  case write =>
    rw [step_cons rfl, performInput_presenting (decode_encode _), exec_writeReq,
      runSteps_cons rfl (performInput_WR_argId _ id), runSteps_cons rfl (performInput_WR_argAddr _ addr),
      runSteps_cons rfl (performInput_WR_argData _ data), runSteps_cons rfl (performInput_command _ .write),
      runSteps_zero]
    rfl

/-- Settles O35: a well-formed request carries the CRC of its fields, so its word holds the frame the block builds. -/
theorem wellFormedRequestFrameLandsInTx : Obligations.WellFormedRequestFrameLandsInTx := by
  intro s f i decodes wf notSent notAwaiting
  obtain ⟨id, addr, crc, rfl, rfl⟩ | ⟨id, addr, data, crc, rfl, rfl⟩ := decodeRequest_ok_iff.1 decodes
  · obtain rfl : crc = requestCrc id Config.fcRead addr Config.readLenIndicator := by simpa [wellFormed] using wf
    refine ⟨_, exec_readReq .., ?_⟩
    rw [buildRequest_of_legal (s := { s with argId := id, argAddr := addr }) notSent notAwaiting, frameBytes_frameWord]
    exact ⟨rfl, rfl⟩
  · obtain rfl : crc = requestCrc id Config.fcWrite addr data := by simpa [wellFormed] using wf
    refine ⟨_, exec_writeReq .., ?_⟩
    rw [buildRequest_of_legal (s := { s with argId := id, argAddr := addr, argData := data }) notSent notAwaiting,
      frameBytes_frameWord]
    exact ⟨rfl, rfl⟩

end Sys2Proof.Machine
end

section
/-!
PROOFS. What one step can do to the transaction (42_transaction.md section 5): `TxnStep` says it once, every step that
answers a next state is one, and the safety statements are cases on it.
-/

namespace Sys2Proof.Machine

/-! States that agree on the transaction. -/

/-- `t` has the transaction of `s`: its registers, and what the transport was handed. -/
structure SameTxn (s t : State) : Prop where
  tx : t.tx = s.tx
  rx : t.rx = s.rx
  rxCnt : t.rxCnt = s.rxCnt
  state : t.state = s.state
  err : t.err = s.err
  kind : t.kind = s.kind
  crcOk : t.crcOk = s.crcOk
  valueValid : t.valueValid = s.valueValid
  value : t.value = s.value
  toTransport : t.toTransport = s.toTransport

namespace SameTxn

theorem refl (s : State) : SameTxn s s := ⟨rfl, rfl, rfl, rfl, rfl, rfl, rfl, rfl, rfl, rfl⟩

theorem setInputs (s : State) (xs : List Input) : SameTxn s (s.setInputs xs) := { refl s with }

theorem setArguments (s : State) (id : Byte) (addr : Half) (data : Word) :
    SameTxn s { s with argId := id, argAddr := addr, argData := data } := { refl s with }

theorem setCrc (s : State) (c : Half) : SameTxn s (s.setCrc c) := { refl s with }

theorem raiseCmdError (s : State) : SameTxn s (raiseCmdError s) := { refl s with }

theorem raiseOverrun (s : State) : SameTxn s (raiseOverrun s) := { refl s with }

theorem raiseStray (s : State) : SameTxn s (raiseStray s) := { refl s with }

theorem returnToHost (v : Word) (s : State) : SameTxn s (returnToHost v s) := { refl s with }

theorem writeReg (r : Reg) (v : Word) (s : State) : SameTxn s (writeReg r v s) := by
  obtain h | ⟨-, h⟩ | ⟨-, h⟩ | ⟨-, h⟩ | ⟨-, h⟩ := writeReg_cases r v s <;> rw [h] <;> exact { refl s with }

theorem trans {s t u : State} (h : SameTxn s t) (h' : SameTxn t u) : SameTxn s u where
  tx := h'.tx.trans h.tx
  rx := h'.rx.trans h.rx
  rxCnt := h'.rxCnt.trans h.rxCnt
  state := h'.state.trans h.state
  err := h'.err.trans h.err
  kind := h'.kind.trans h.kind
  crcOk := h'.crcOk.trans h.crcOk
  valueValid := h'.valueValid.trans h.valueValid
  value := h'.value.trans h.value
  toTransport := h'.toTransport.trans h.toTransport

end SameTxn

/-- Outside AwaitingResponse, received bytes leave the transaction (42_transaction.md R101). -/
theorem sameTxn_foldl_receiveByte {s : State} (notAwaiting : s.state ≠ .awaitingResponse) (bs : List Byte) :
    SameTxn s (bs.foldl receiveByte s) := by
  induction bs generalizing s with
  | nil => exact .refl s
  | cons b bs ih =>
    rw [List.foldl_cons, receiveByte_of_not_awaiting notAwaiting]
    exact (SameTxn.raiseStray s).trans (ih (s := raiseStray s) notAwaiting)

@[simp] theorem foldl_receiveByte_state (s : State) (bs : List Byte) : (bs.foldl receiveByte s).state = s.state := by
  induction bs generalizing s with
  | nil => rfl
  | cons b bs ih => rw [List.foldl_cons, ih, receiveByte_state]

/-! What one step can do to the transaction. -/

/-- What performing the input `x` in `s` can do to the transaction, ending in `t`. -/
inductive TxnStep (x : Input) (s t : State) : Prop where
  /-- The transaction stays as it is. -/
  | same (same : SameTxn s t)
  /-- ENC_READ, ENC_WRITE or a request frame, which first sets the arguments `u` has (log 5). -/
  | build (q : ReqKind) (u : State) (asked : x = hostCommand q.command ∨ ∃ f, x = .requestFrame f)
      (notSent : s.state ≠ .sent) (notAwaiting : s.state ≠ .awaitingResponse) (arguments : SameTxn s u)
      (built : t =
        encCommon { u with tx := buildFrame u.argId q.functionCode u.argAddr (requestPayload q u), kind := q })
  /-- SEND. -/
  | send (frameBuilt : s.state = .frameBuilt) (sent : t = { emit (.txWrite s.tx) s with state := .sent })
  /-- RECV. -/
  | recv (sent : s.state = .sent)
      (opened : t =
        { emit (.rxRequest Config.responseLen) s with
          rx := zeroFrame, rxCnt := 0, crcOk := false, state := .awaitingResponse })
  /-- RX_BYTE with room for it. -/
  | store (b : Byte) (awaiting : s.state = .awaitingResponse) (room : s.rxCnt.val < 10)
      (stored : t = { s with rx := s.rx.set s.rxCnt.val b room, rxCnt := ⟨s.rxCnt.val + 1, Nat.succ_lt_succ room⟩ })
  /-- RX_END, or a response frame, which first delivers its bytes `bs` (log 7). -/
  | settle (k : RxEndKind) (bs : List Byte) (asked : (∃ k, x = .rxEnd k) ∨ ∃ f, x = .responseFrame f)
      (awaiting : s.state = .awaitingResponse) (settled : t = endRead k (bs.foldl receiveByte s))
  /-- XPORT_ERR. -/
  | fail (asked : x = .xportErr) (inFlight : s.state = .sent ∨ s.state = .awaitingResponse)
      (failed : t = enterErrored .communicationError s)
  /-- Reset. -/
  | reset (asked : x = .reset) (isReset : t = assertReset s)

namespace TxnStep

variable {x : Input} {s u : State}

/-- Building a request, from the arguments of `u`. -/
theorem buildRequest {q : ReqKind} (asked : x = hostCommand q.command ∨ ∃ f, x = .requestFrame f)
    (arguments : SameTxn s u) : TxnStep x s (buildRequest q u) := by
  obtain ⟨-, h⟩ | ⟨notSent, notAwaiting, h⟩ := buildRequest_cases q u <;> rw [h]
  · exact .same (arguments.trans (.raiseCmdError u))
  · rw [arguments.state] at notSent notAwaiting
    exact .build q u asked notSent notAwaiting arguments rfl

theorem sendFrame : TxnStep x s (sendFrame s) := by
  obtain ⟨frameBuilt, h⟩ | ⟨-, h⟩ := sendFrame_cases s <;> rw [h]
  · exact .send frameBuilt rfl
  · exact .same (.raiseCmdError s)

theorem openRead : TxnStep x s (openRead s) := by
  obtain ⟨sent, h⟩ | ⟨-, h⟩ := openRead_cases s <;> rw [h]
  · exact .recv sent rfl
  · exact .same (.raiseCmdError s)

theorem receiveByte (b : Byte) : TxnStep x s (receiveByte s b) := by
  obtain ⟨awaiting, room, h⟩ | ⟨-, -, h⟩ | ⟨-, h⟩ := receiveByte_cases s b <;> rw [h]
  · exact .store b awaiting room rfl
  · exact .same (.raiseOverrun s)
  · exact .same (.raiseStray s)

/-- Ending a read attempt, after the bytes `bs`. -/
theorem endRead {k : RxEndKind} (asked : (∃ k, x = .rxEnd k) ∨ ∃ f, x = .responseFrame f) (bs : List Byte) :
    TxnStep x s (endRead k (bs.foldl Machine.receiveByte s)) := by
  by_cases awaiting : s.state = .awaitingResponse
  · exact .settle k bs asked awaiting rfl
  · rw [endRead_of_not_awaiting (by rwa [foldl_receiveByte_state])]
    exact .same ((sameTxn_foldl_receiveByte awaiting bs).trans (.raiseStray _))

theorem transportException (asked : x = .xportErr) : TxnStep x s (transportException s) := by
  obtain ⟨inFlight, h⟩ | ⟨-, -, h⟩ := transportException_cases s <;> rw [h]
  · exact .fail asked inFlight rfl
  · exact .same (.raiseStray s)

end TxnStep

/-- An instruction does one of these things, its input being the one that presents it. -/
theorem txnStep_of_exec {i : Instr} {s t : State} (run : exec i s = .next t) : TxnStep (hostCommand i) s t := by
  cases i with
  | nop => obtain rfl := Host.Outcome.next.inj run; exact .same (.refl s)
  | crcInit => obtain rfl := Host.Outcome.next.inj run; exact .same (.setCrc s _)
  | crcUpdate b => obtain rfl := Host.Outcome.next.inj run; exact .same (.setCrc s _)
  | encRead => obtain rfl := Host.Outcome.next.inj run; exact .buildRequest (q := .read) (.inl rfl) (.refl s)
  | encWrite => obtain rfl := Host.Outcome.next.inj run; exact .buildRequest (q := .write) (.inl rfl) (.refl s)
  | send => obtain rfl := Host.Outcome.next.inj run; exact .sendFrame
  | recv => obtain rfl := Host.Outcome.next.inj run; exact .openRead
  | readReq id addr crc =>
    obtain rfl := Host.Outcome.next.inj ((exec_readReq s id addr crc).symm.trans run)
    exact .buildRequest (.inr ⟨_, rfl⟩) (.setArguments s id addr s.argData)
  | writeReq id addr data crc =>
    obtain rfl := Host.Outcome.next.inj ((exec_writeReq s id addr data crc).symm.trans run)
    exact .buildRequest (.inr ⟨_, rfl⟩) (.setArguments s id addr data)
  | response header payload crc =>
    obtain rfl := Host.Outcome.next.inj run
    exact .endRead (.inr ⟨_, rfl⟩) _
  | rxByte b => obtain rfl := Host.Outcome.next.inj run; exact .receiveByte b
  | rxEnd k => obtain rfl := Host.Outcome.next.inj run; exact .endRead (.inl ⟨k, rfl⟩) []
  | xportErr => obtain rfl := Host.Outcome.next.inj run; exact .transportException rfl

theorem txnStep_of_performInput {x : Input} {s t : State} (performed : performInput x s = .next t) :
    TxnStep x s t := by
  obtain ⟨i, rfl, run⟩ | rfl | ⟨v, rfl⟩ | ⟨r, v, -, rfl⟩ | ⟨rfl, rfl⟩ := performInput_next_cases performed
  · exact txnStep_of_exec run
  · exact .same (.raiseCmdError s)
  · exact .same (.returnToHost v s)
  · exact .same (.writeReg r v s)
  · exact .reset rfl rfl

/-- A step with an input pending does one of these things on the state that has taken the input. -/
theorem txnStep_of_step {x : Input} {rest : List Input} {s t : State} (pending : s.inputs = x :: rest)
    (stepped : step s = .next t) : TxnStep x (s.setInputs rest) t :=
  txnStep_of_performInput ((step_cons pending).symm.trans stepped)

/-- A step waits, or does one of these things on the state that has taken its input. -/
theorem step_txn_cases {s t : State} (stepped : step s = .next t) :
    t = s ∨ ∃ x rest, TxnStep x (s.setInputs rest) t := by
  obtain ⟨-, h⟩ | ⟨x, rest, -, performed⟩ := step_cases stepped
  · exact .inl h
  · exact .inr ⟨x, rest, txnStep_of_performInput performed⟩

/-! What receiving bytes and ending an attempt leave as it was. -/

/-- Received bytes change RX, RXCNT, RX_OVERRUN and STRAY only. -/
theorem foldl_receiveByte_frame (s : State) (bs : List Byte) :
    { bs.foldl receiveByte s with rx := s.rx, rxCnt := s.rxCnt, rxOverrun := s.rxOverrun, stray := s.stray } = s := by
  induction bs generalizing s with
  | nil => rfl
  | cons b bs ih =>
    have rest := congrArg
      (fun t => { t with rx := s.rx, rxCnt := s.rxCnt, rxOverrun := s.rxOverrun, stray := s.stray })
      (ih (receiveByte s b))
    exact rest.trans (receiveByte_frame s b)

section
variable (s : State) (bs : List Byte)

@[simp] theorem foldl_receiveByte_tx : (bs.foldl receiveByte s).tx = s.tx :=
  (congrArg State.tx (foldl_receiveByte_frame s bs) :)

@[simp] theorem foldl_receiveByte_kind : (bs.foldl receiveByte s).kind = s.kind :=
  (congrArg State.kind (foldl_receiveByte_frame s bs) :)

@[simp] theorem foldl_receiveByte_toTransport : (bs.foldl receiveByte s).toTransport = s.toTransport :=
  (congrArg State.toTransport (foldl_receiveByte_frame s bs) :)

end

section
variable (e : ErrCode) (s : State)

@[simp] theorem settleOutcome_state : (settleOutcome e s).state = if e = .success then .decoded else .errored := by
  unfold settleOutcome; split <;> simp
@[simp] theorem settleOutcome_err : (settleOutcome e s).err = e := by
  unfold settleOutcome; split <;> simp [*]
@[simp] theorem settleOutcome_tx : (settleOutcome e s).tx = s.tx := by
  unfold settleOutcome; split <;> simp
@[simp] theorem settleOutcome_rx : (settleOutcome e s).rx = s.rx := by
  unfold settleOutcome; split <;> simp
@[simp] theorem settleOutcome_rxCnt : (settleOutcome e s).rxCnt = s.rxCnt := by
  unfold settleOutcome; split <;> simp
@[simp] theorem settleOutcome_kind : (settleOutcome e s).kind = s.kind := by
  unfold settleOutcome; split <;> simp
@[simp] theorem settleOutcome_crc : (settleOutcome e s).crc = s.crc := by
  unfold settleOutcome; split <;> simp
@[simp] theorem settleOutcome_inputs : (settleOutcome e s).inputs = s.inputs := by
  unfold settleOutcome; split <;> simp
@[simp] theorem settleOutcome_toTransport : (settleOutcome e s).toTransport = s.toTransport := by
  unfold settleOutcome; split <;> simp

end

/-- An ended attempt is in Decoded or Errored, ERR is a classification, and TX, KIND and what the transport was handed
are as they were. -/
theorem settled_attempt {k : RxEndKind} {bs : List Byte} {s t : State} (awaiting : s.state = .awaitingResponse)
    (settled : t = endRead k (bs.foldl receiveByte s)) :
    (t.state = .decoded ∨ t.state = .errored) ∧ t.err ≠ .valueError ∧ t.tx = s.tx ∧ t.kind = s.kind ∧
      t.toTransport = s.toTransport := by
  rw [settled, endRead_of_awaiting (by rwa [foldl_receiveByte_state])]
  refine ⟨?_, ?_, ?_, ?_, ?_⟩
  · rw [settleOutcome_state]
    split <;> simp
  · rw [settleOutcome_err]
    obtain h | h | h := classify_mem (bs.foldl receiveByte s).kind k (bs.foldl receiveByte s).rxCnt.val <;>
      rw [h] <;> decide
  · rw [settleOutcome_tx, foldl_receiveByte_tx]
  · rw [settleOutcome_kind, foldl_receiveByte_kind]
  · rw [settleOutcome_toTransport, foldl_receiveByte_toTransport]

/-! The obligations on single steps. -/

/-- Settles O48: of the things a step can do, only a settled attempt, XPORT_ERR and reset start in AwaitingResponse and
end elsewhere. -/
theorem onlyTransportOrResetEndsTheAttempt : Obligations.OnlyTransportOrResetEndsTheAttempt := by
  intro s t x rest awaiting pending stepped left
  cases txnStep_of_step pending stepped with
  | same same => exact absurd (same.state.trans awaiting) left
  | build q u asked notSent notAwaiting => exact absurd awaiting notAwaiting
  | send frameBuilt => exact absurd (awaiting.symm.trans frameBuilt) (by decide)
  | recv sent => exact absurd (awaiting.symm.trans sent) (by decide)
  | store b h room stored => exact absurd (stored ▸ awaiting) left
  | settle k bs asked =>
    obtain ended | response := asked
    · exact .inl ended
    · exact .inr (.inr (.inr response))
  | fail asked => exact .inr (.inl asked)
  | reset asked => exact .inr (.inr (.inl asked))

/-- The inputs that ask for a request to be built, as the statements list them. -/
theorem asked_build {x : Input} {q : ReqKind} (asked : x = hostCommand q.command ∨ ∃ f, x = .requestFrame f) :
    x = hostCommand .encRead ∨ x = hostCommand .encWrite ∨ ∃ f, x = .requestFrame f := by
  obtain command | frame := asked
  · cases q with
    | read => exact .inl command
    | write => exact .inr (.inl command)
  · exact .inr (.inr frame)

/-- Settles O49: of the things a step can do, only building a request and reset start in Decoded or Errored and touch
the outcome. -/
theorem terminalStatesAreLeftOnlyByEncOrReset : Obligations.TerminalStatesAreLeftOnlyByEncOrReset := by
  intro s t x rest ended pending stepped
  have notIn {st : TxnState} (running : st ≠ .decoded ∧ st ≠ .errored) : s.state ≠ st := by
    rintro rfl
    obtain h | h := ended
    · exact running.1 h
    · exact running.2 h
  cases txnStep_of_step pending stepped with
  | same same => exact .inl ⟨same.state, same.err, same.value, same.valueValid⟩
  | build q u asked =>
    obtain read | write | frame := asked_build asked
    · exact .inr (.inl read)
    · exact .inr (.inr (.inl write))
    · exact .inr (.inr (.inr (.inr frame)))
  | send frameBuilt => exact absurd frameBuilt (notIn (by decide))
  | recv sent => exact absurd sent (notIn (by decide))
  | store b awaiting => exact absurd awaiting (notIn (by decide))
  | settle k bs asked awaiting => exact absurd awaiting (notIn (by decide))
  | fail asked inFlight =>
    obtain sent | awaiting := inFlight
    · exact absurd sent (notIn (by decide))
    · exact absurd awaiting (notIn (by decide))
  | reset asked => exact .inr (.inr (.inr (.inl asked)))

/-- Settles O51: of the things a step can do, only building a request and reset write TX or KIND. -/
theorem txAndKindChangeOnlyByEncOrReset : Obligations.TxAndKindChangeOnlyByEncOrReset := by
  intro s t x rest pending stepped
  cases txnStep_of_step pending stepped with
  | same same => exact .inl ⟨same.tx, same.kind⟩
  | build q u asked =>
    obtain read | write | frame := asked_build asked
    · exact .inr (.inl read)
    · exact .inr (.inr (.inl write))
    · exact .inr (.inr (.inr (.inr frame)))
  | send _ h | recv _ h | store _ _ _ h | fail _ _ h =>
    subst h
    exact .inl ⟨rfl, rfl⟩
  | settle k bs asked awaiting settled =>
    obtain ⟨-, -, tx, kind, -⟩ := settled_attempt awaiting settled
    exact .inl ⟨tx, kind⟩
  | reset asked => exact .inr (.inr (.inr (.inl asked)))

/-- Settles O53: of the things a step can do, those that write ERR write Success, CommunicationError or a
classification. -/
theorem valueErrorIsNeverProduced : Obligations.ValueErrorIsNeverProduced := by
  intro s t before stepped
  obtain rfl | ⟨x, rest, did⟩ := step_txn_cases stepped
  · exact before
  cases did with
  | same same =>
    rw [same.err]
    exact before
  | send _ h | recv _ h | store _ _ _ h =>
    subst h
    exact before
  | build _ _ _ _ _ _ h | fail _ _ h | reset _ h =>
    subst h
    exact nofun
  | settle k bs asked awaiting settled =>
    obtain ⟨-, err, -⟩ := settled_attempt awaiting settled
    exact err

/-! What the transport is handed, and when (42_transaction.md R104). -/

/-- From `s` to `t` the transport is handed one message. -/
def HandsOver (m : TransportMsg) (s t : State) : Prop := t.toTransport = s.toTransport ++ [m]

/-- Of the things a step can do, SEND alone hands over a frame, RECV alone a read request, and each alone enters the
state that follows. -/
theorem TxnStep.handover {x : Input} {s t : State} (did : TxnStep x s t) :
    (t.toTransport = s.toTransport ∨
      (s.state = TxnState.frameBuilt ∧ t.state = TxnState.sent ∧ HandsOver (.txWrite s.tx) s t) ∨
      (s.state = TxnState.sent ∧ t.state = TxnState.awaitingResponse ∧ HandsOver (.rxRequest 10) s t)) ∧
    (t.state = TxnState.sent → (s.state = TxnState.sent ∧ t.toTransport = s.toTransport) ∨
      (s.state = TxnState.frameBuilt ∧ HandsOver (.txWrite s.tx) s t)) ∧
    (t.state = TxnState.awaitingResponse →
      (s.state = TxnState.awaitingResponse ∧ t.toTransport = s.toTransport) ∨
        (s.state = TxnState.sent ∧ HandsOver (.rxRequest 10) s t)) := by
  cases did with
  | same same =>
    exact ⟨.inl same.toTransport, fun h => .inl ⟨same.state.symm.trans h, same.toTransport⟩,
      fun h => .inl ⟨same.state.symm.trans h, same.toTransport⟩⟩
  | build q u asked notSent notAwaiting arguments built =>
    subst built
    exact ⟨.inl arguments.toTransport, nofun, nofun⟩
  | send frameBuilt sent =>
    subst sent
    exact ⟨.inr (.inl ⟨frameBuilt, rfl, rfl⟩), fun _ => .inr ⟨frameBuilt, rfl⟩, nofun⟩
  | recv sent opened =>
    subst opened
    exact ⟨.inr (.inr ⟨sent, rfl, rfl⟩), nofun, fun _ => .inr ⟨sent, rfl⟩⟩
  | store b awaiting room stored =>
    subst stored
    exact ⟨.inl rfl, fun sent => .inl ⟨sent, rfl⟩, fun _ => .inl ⟨awaiting, rfl⟩⟩
  | settle k bs asked awaiting settled =>
    obtain ⟨ended, -, -, -, handed⟩ := settled_attempt awaiting settled
    refine ⟨.inl handed, fun h => ?_, fun h => ?_⟩ <;> rw [h] at ended <;> simp at ended
  | fail asked inFlight failed =>
    subst failed
    exact ⟨.inl rfl, nofun, nofun⟩
  | reset asked isReset =>
    subst isReset
    exact ⟨.inl rfl, nofun, nofun⟩

/-- Of the things a step can do, building a request alone enters FrameBuilt. -/
theorem TxnStep.into_frameBuilt {x : Input} {s t : State} (did : TxnStep x s t) (entered : t.state = .frameBuilt) :
    (s.state = .frameBuilt ∧ t.toTransport = s.toTransport) ∨
      (s.state ≠ .sent ∧ s.state ≠ .awaitingResponse ∧
        (x = hostCommand .encRead ∨ x = hostCommand .encWrite ∨ ∃ f, x = .requestFrame f)) := by
  cases did with
  | same same => exact .inl ⟨same.state.symm.trans entered, same.toTransport⟩
  | build q u asked notSent notAwaiting => exact .inr ⟨notSent, notAwaiting, asked_build asked⟩
  | send _ h | recv _ h | fail _ _ h | reset _ h =>
    subst h
    cases entered
  | store b awaiting room stored =>
    subst stored
    exact absurd (awaiting.symm.trans entered) (by decide)
  | settle k bs asked awaiting settled =>
    obtain ⟨ended, -⟩ := settled_attempt awaiting settled
    rw [entered] at ended
    simp at ended

/-- Settles O50: `TxnStep.handover` and `TxnStep.into_frameBuilt`; a step that waits hands over nothing. -/
theorem eachFrameIsSentOnceAndReadOnce : Obligations.EachFrameIsSentOnceAndReadOnce := by
  refine ⟨fun s t stepped => ?_, fun s t x rest pending stepped =>
    (txnStep_of_step pending stepped).into_frameBuilt⟩
  obtain rfl | ⟨x, rest, did⟩ := step_txn_cases stepped
  · exact ⟨.inl rfl, fun h => .inl ⟨h, rfl⟩, fun h => .inl ⟨h, rfl⟩⟩
  · exact did.handover

end Sys2Proof.Machine
end

section
/-!
PROOFS. The invariants of 10_state.md section 9: they speak of the transaction alone, each thing a step can do to the
transaction keeps them, and so they hold in every state a run from reset reaches. Then the argument registers.
-/

namespace Sys2Proof.Machine

/-! The buffers and the CRC check. -/

/-- The bytes of RX from RXCNT on are 0 (10_state.md R21). -/
def RxZeroBeyond (s : State) : Prop := ∀ i : Fin 10, s.rxCnt.val ≤ i.val → s.rx[i] = 0#8

/-- TX is a well-formed frame of the kind KIND says (10_state.md R36(g)). -/
def TxHoldsRequest (s : State) : Prop :=
  frameWellFormed s.tx = true ∧ (s.kind = .write ↔ s.tx[1] = Config.fcWrite)

theorem rxZeroBeyond_of_zeroFrame {s : State} (empty : s.rx = zeroFrame) : RxZeroBeyond s := by
  intro i _
  rw [empty]
  exact zeroFrame_getElem i.isLt

/-- Storing a byte at RXCNT and counting it leaves the bytes beyond. -/
theorem RxZeroBeyond.store {s : State} (zero : RxZeroBeyond s) (b : Byte) (room : s.rxCnt.val < 10) :
    RxZeroBeyond { s with rx := s.rx.set s.rxCnt.val b room, rxCnt := ⟨s.rxCnt.val + 1, Nat.succ_lt_succ room⟩ } := by
  intro i beyond
  have later : s.rxCnt.val < i.val := beyond
  change (s.rx.set s.rxCnt.val b room)[i.val] = 0#8
  rw [Vector.getElem_set_ne _ _ later.ne]
  exact zero i later.le

/-- A built frame is of the kind it was built for. -/
theorem txHoldsRequest_of_built {s : State} {id : Byte} {addr : Half} {payload : Word}
    (built : s.tx = buildFrame id s.kind.functionCode addr payload) : TxHoldsRequest s := by
  rw [TxHoldsRequest, built, buildFrame_functionCode]
  refine ⟨frameWellFormed_buildFrame .., ?_⟩
  cases s.kind <;> decide

theorem rxCnt_of_crcMatch {n : Nat} {f : Frame} (matched : crcMatch n f = true) : n = 10 := by
  rw [crcMatch_eq_decide, decide_eq_true_iff] at matched
  exact matched.1

/-! The invariants by the state of the transaction. -/

/-- FrameBuilt, Sent or AwaitingResponse: a request is built and its transaction has not ended. -/
def TxnState.Underway (t : TxnState) : Prop := t = .frameBuilt ∨ t = .sent ∨ t = .awaitingResponse

theorem TxnState.Underway.not_ended {t : TxnState} (h : t.Underway) : t ≠ .idle ∧ t ≠ .decoded ∧ t ≠ .errored := by
  obtain rfl | rfl | rfl := h <;> decide

/-- While a transaction is underway the invariants say that there is no outcome yet. -/
theorem stateInv_iff_of_underway {s : State} (underway : s.state.Underway) :
    StateInv s ↔
      s.err = .success ∧ s.valueValid = false ∧ s.value = 0#32 ∧ s.crcOk = false ∧ TxHoldsRequest s ∧ RxZeroBeyond s := by
  obtain ⟨notIdle, notDecoded, notErrored⟩ := underway.not_ended
  constructor
  · intro inv
    have invalid : s.valueValid = false := Bool.eq_false_iff.2 fun valid => notDecoded (inv.valueValid_iff.1 valid).1
    refine ⟨?_, invalid, ?_, ?_, inv.tx_wellFormed notIdle, inv.rx_beyond_zero⟩
    · by_contra failed
      exact notErrored (inv.err_iff_errored.1 failed)
    · by_contra nonzero
      exact absurd (inv.value_valid nonzero) (by simp [invalid])
    · refine Bool.eq_false_iff.2 fun ok => ?_
      exact (inv.crcOk_ended ok).2.elim notDecoded notErrored
  · rintro ⟨success, invalid, zero, noCrc, request, beyond⟩
    exact
      { err_not_valueError := by simp [success]
        err_iff_errored := by simp [success, notErrored]
        valueValid_iff := by simp [invalid, notDecoded]
        value_valid := fun nonzero => absurd zero nonzero
        crcOk_ended := by simp [noCrc]
        tx_wellFormed := fun _ => request
        idle_reset := fun idle => absurd idle notIdle
        rx_beyond_zero := beyond }

/-- Ending a transaction with an outcome other than Success and ValueError. -/
theorem stateInv_enterErrored {e : ErrCode} {s : State} (failed : e ≠ .success) (notValueError : e ≠ .valueError)
    (request : TxHoldsRequest s) (beyond : RxZeroBeyond s) (checked : s.crcOk = true → s.rxCnt.val = 10) :
    StateInv (enterErrored e s) where
  err_not_valueError := notValueError
  err_iff_errored := by simp [failed]
  valueValid_iff := by simp
  value_valid := by simp
  crcOk_ended ok := ⟨checked ok, .inr rfl⟩
  tx_wellFormed _ := request
  idle_reset := nofun
  rx_beyond_zero := beyond

/-- Ending a transaction with Success: a read gets its value, a write has none. -/
theorem stateInv_enterDecoded {s : State} (request : TxHoldsRequest s) (beyond : RxZeroBeyond s)
    (checked : s.crcOk = true → s.rxCnt.val = 10) (invalid : s.valueValid = false) (zero : s.value = 0#32) :
    StateInv (enterDecoded s) where
  err_not_valueError := by simp
  err_iff_errored := by simp
  valueValid_iff := by cases kind : s.kind <;> simp [kind, invalid]
  value_valid := by cases kind : s.kind <;> simp [kind, zero]
  crcOk_ended ok := by
    rw [enterDecoded_crcOk] at ok
    exact ⟨by rw [enterDecoded_rxCnt, checked ok], .inl (enterDecoded_state s)⟩
  tx_wellFormed _ := by simpa [TxHoldsRequest] using request
  idle_reset := by simp
  rx_beyond_zero := by simpa [RxZeroBeyond] using beyond

theorem stateInv_settleOutcome {e : ErrCode} {s : State} (notValueError : e ≠ .valueError)
    (request : TxHoldsRequest s) (beyond : RxZeroBeyond s) (checked : s.crcOk = true → s.rxCnt.val = 10)
    (invalid : s.valueValid = false) (zero : s.value = 0#32) : StateInv (settleOutcome e s) := by
  obtain ⟨-, h⟩ | ⟨failed, h⟩ := settleOutcome_cases e s <;> rw [h]
  · exact stateInv_enterDecoded request beyond checked invalid zero
  · exact stateInv_enterErrored failed notValueError request beyond checked

/-- Reset in any state, `State.reset` among them, meets the invariants. -/
theorem stateInv_assertReset (s : State) : StateInv (assertReset s) where
  err_not_valueError := nofun
  err_iff_errored := by simp [State.reset]
  valueValid_iff := by simp [State.reset]
  value_valid nonzero := absurd rfl nonzero
  crcOk_ended := nofun
  tx_wellFormed outside := absurd rfl outside
  idle_reset _ := ⟨rfl, rfl, rfl, rfl, rfl, rfl, rfl, rfl⟩
  rx_beyond_zero := rxZeroBeyond_of_zeroFrame rfl

/-! What a step can do keeps the invariants. -/

/-- The invariants speak of the transaction alone. -/
theorem StateInv.of_sameTxn {s t : State} (inv : StateInv s) (same : SameTxn s t) : StateInv t := by
  obtain ⟨tx, rx, rxCnt, state, err, kind, crcOk, valueValid, value, -⟩ := same
  constructor
  · rw [err]; exact inv.err_not_valueError
  · rw [err, state]; exact inv.err_iff_errored
  · rw [valueValid, state, kind]; exact inv.valueValid_iff
  · rw [value, valueValid]; exact inv.value_valid
  · rw [crcOk, rxCnt, state]; exact inv.crcOk_ended
  · rw [state, tx, kind]; exact inv.tx_wellFormed
  · rw [state, tx, rx, rxCnt, err, kind, crcOk, valueValid, value]; exact inv.idle_reset
  · rw [rxCnt, rx]; exact inv.rx_beyond_zero

/-- RX_BYTE keeps the invariants. -/
theorem StateInv.receiveByte {s : State} (inv : StateInv s) (b : Byte) : StateInv (receiveByte s b) := by
  obtain ⟨awaiting, room, h⟩ | ⟨-, -, h⟩ | ⟨-, h⟩ := receiveByte_cases s b <;> rw [h]
  · have underway : s.state.Underway := .inr (.inr awaiting)
    obtain ⟨success, invalid, zero, noCrc, request, beyond⟩ := (stateInv_iff_of_underway underway).1 inv
    refine (stateInv_iff_of_underway ?_).2 ⟨success, invalid, zero, noCrc, request, beyond.store b room⟩
    exact underway
  · exact inv.of_sameTxn (.raiseOverrun s)
  · exact inv.of_sameTxn (.raiseStray s)

theorem StateInv.foldl_receiveByte {s : State} (inv : StateInv s) (bs : List Byte) :
    StateInv (bs.foldl Machine.receiveByte s) := by
  induction bs generalizing s with
  | nil => exact inv
  | cons b bs ih => exact ih (inv.receiveByte b)

/-- RX_END keeps the invariants. -/
theorem StateInv.endRead {s : State} (inv : StateInv s) (k : RxEndKind) : StateInv (endRead k s) := by
  obtain ⟨awaiting, h⟩ | ⟨-, h⟩ := endRead_cases k s <;> rw [h]
  · obtain ⟨-, invalid, zero, -, request, beyond⟩ := (stateInv_iff_of_underway (.inr (.inr awaiting))).1 inv
    have notValueError : classify s.kind k s.rxCnt.val ≠ .valueError := by
      obtain h | h | h := classify_mem s.kind k s.rxCnt.val <;> rw [h] <;> decide
    exact stateInv_settleOutcome (s := { s with crcOk := crcMatch s.rxCnt.val s.rx }) notValueError request beyond
      rxCnt_of_crcMatch invalid zero
  · exact inv.of_sameTxn (.raiseStray s)

/-- Everything a step can do keeps the invariants. -/
theorem StateInv.of_txnStep {x : Input} {s t : State} (inv : StateInv s) (did : TxnStep x s t) : StateInv t := by
  cases did with
  | same same => exact inv.of_sameTxn same
  | build q u asked notSent notAwaiting arguments built =>
    subst built
    exact (stateInv_iff_of_underway (.inl rfl)).2
      ⟨rfl, rfl, rfl, rfl, txHoldsRequest_of_built rfl, rxZeroBeyond_of_zeroFrame rfl⟩
  | send frameBuilt sent =>
    subst sent
    exact (stateInv_iff_of_underway (.inr (.inl rfl))).2 ((stateInv_iff_of_underway (.inl frameBuilt)).1 inv)
  | recv sent opened =>
    subst opened
    obtain ⟨success, invalid, zero, -, request, -⟩ := (stateInv_iff_of_underway (.inr (.inl sent))).1 inv
    exact (stateInv_iff_of_underway (.inr (.inr rfl))).2
      ⟨success, invalid, zero, rfl, request, rxZeroBeyond_of_zeroFrame rfl⟩
  | store b awaiting room stored =>
    rw [stored, ← receiveByte_of_room awaiting room]
    exact inv.receiveByte b
  | settle k bs asked awaiting settled =>
    subst settled
    exact (inv.foldl_receiveByte bs).endRead k
  | fail asked inFlight failed =>
    subst failed
    obtain ⟨-, -, -, noCrc, request, beyond⟩ := (stateInv_iff_of_underway (.inr inFlight)).1 inv
    exact stateInv_enterErrored (by decide) (by decide) request beyond (by simp [noCrc])
  | reset asked isReset =>
    subst isReset
    exact stateInv_assertReset _

theorem StateInv.of_step {s t : State} (inv : StateInv s) (stepped : step s = .next t) : StateInv t := by
  obtain rfl | ⟨x, rest, did⟩ := step_txn_cases stepped
  · exact inv
  · exact (inv.of_sameTxn (.setInputs s rest)).of_txnStep did

/-! Runs. -/

/-- What holds where a run starts and is kept by every step holds where the run ends. -/
theorem runSteps_invariant {P : State → Prop} (kept : ∀ s t, P s → step s = .next t → P t) {n : Nat} {s t : State}
    (start : P s) (run : runSteps n s = .next t) : P t := by
  induction n generalizing s with
  | zero =>
    obtain rfl := Host.Outcome.next.inj run
    exact start
  | succ n ih =>
    cases stepped : step s with
    | next u => exact ih (kept s u start stepped) ((runSteps_succ_of_step stepped).symm.trans run)
    | fault r =>
      have stops : Sys2Proof.core.step s = .fault r := stepped
      simp [runSteps, Host.Core.run, stops] at run
    | refused r =>
      have stops : Sys2Proof.core.step s = .refused r := stepped
      simp [runSteps, Host.Core.run, stops] at run

/-- The states have the codes 0 to 5 (10_state.md R23). -/
theorem txnState_code_le (t : TxnState) : t.code.toNat ≤ 5 := by cases t <;> decide

/-- The outcomes but ValueError have the codes 0, 1, 3 and 4 (10_state.md R24). -/
theorem errCode_code_mem {e : ErrCode} (notValueError : e ≠ .valueError) : e.code.toNat ∈ [0, 1, 3, 4] := by
  cases e with
  | valueError => exact absurd rfl notValueError
  | _ => decide

/-! The argument registers. -/

/-- `t` has the argument registers of `s`. -/
structure SameArguments (s t : State) : Prop where
  argId : t.argId = s.argId
  argAddr : t.argAddr = s.argAddr
  argData : t.argData = s.argData

namespace SameArguments

variable (s : State)

theorem buildRequest (q : ReqKind) : SameArguments s (buildRequest q s) := by
  obtain ⟨-, h⟩ | ⟨-, -, h⟩ := buildRequest_cases q s <;> rw [h] <;> exact ⟨rfl, rfl, rfl⟩

theorem sendFrame : SameArguments s (sendFrame s) := by
  obtain ⟨-, h⟩ | ⟨-, h⟩ := sendFrame_cases s <;> rw [h] <;> exact ⟨rfl, rfl, rfl⟩

theorem openRead : SameArguments s (openRead s) := by
  obtain ⟨-, h⟩ | ⟨-, h⟩ := openRead_cases s <;> rw [h] <;> exact ⟨rfl, rfl, rfl⟩

theorem foldl_receiveByte (bs : List Byte) : SameArguments s (bs.foldl receiveByte s) where
  argId := (congrArg State.argId (foldl_receiveByte_frame s bs) :)
  argAddr := (congrArg State.argAddr (foldl_receiveByte_frame s bs) :)
  argData := (congrArg State.argData (foldl_receiveByte_frame s bs) :)

theorem settleOutcome (e : ErrCode) : SameArguments s (settleOutcome e s) := by
  obtain ⟨-, h⟩ | ⟨-, h⟩ := settleOutcome_cases e s <;> rw [h] <;> constructor <;> simp

theorem endRead (k : RxEndKind) : SameArguments s (endRead k s) := by
  obtain ⟨-, h⟩ | ⟨-, h⟩ := endRead_cases k s <;> rw [h]
  · exact { settleOutcome { s with crcOk := crcMatch s.rxCnt.val s.rx } _ with }
  · exact ⟨rfl, rfl, rfl⟩

theorem transportException : SameArguments s (transportException s) := by
  obtain ⟨-, h⟩ | ⟨-, -, h⟩ := transportException_cases s <;> rw [h] <;> exact ⟨rfl, rfl, rfl⟩

end SameArguments

/-- An instruction that is no request frame leaves the argument registers (10_state.md section 1). -/
theorem sameArguments_of_exec {i : Instr} {s t : State} (run : exec i s = .next t) :
    SameArguments s t ∨ ∃ f, hostCommand i = .requestFrame f := by
  cases i with
  | nop | crcInit | crcUpdate b => obtain rfl := Host.Outcome.next.inj run; exact .inl ⟨rfl, rfl, rfl⟩
  | encRead => obtain rfl := Host.Outcome.next.inj run; exact .inl (.buildRequest s .read)
  | encWrite => obtain rfl := Host.Outcome.next.inj run; exact .inl (.buildRequest s .write)
  | send => obtain rfl := Host.Outcome.next.inj run; exact .inl (.sendFrame s)
  | recv => obtain rfl := Host.Outcome.next.inj run; exact .inl (.openRead s)
  | readReq id addr crc | writeReq id addr data crc => exact .inr ⟨_, rfl⟩
  | response header payload crc =>
    obtain rfl := Host.Outcome.next.inj run
    have received := SameArguments.foldl_receiveByte s (responseBytes header payload crc)
    have ended := SameArguments.endRead ((responseBytes header payload crc).foldl receiveByte s) .data
    exact .inl ⟨ended.argId.trans received.argId, ended.argAddr.trans received.argAddr,
      ended.argData.trans received.argData⟩
  | rxByte b => obtain rfl := Host.Outcome.next.inj run; exact .inl (.foldl_receiveByte s [b])
  | rxEnd k => obtain rfl := Host.Outcome.next.inj run; exact .inl (.endRead s k)
  | xportErr => obtain rfl := Host.Outcome.next.inj run; exact .inl (.transportException s)

/-- A host write changes no argument register but the one it writes. -/
theorem writeReg_arguments (r : Reg) (v : Word) (s : State) :
    ((writeReg r v s).argId = s.argId ∨ r = .argId) ∧ ((writeReg r v s).argAddr = s.argAddr ∨ r = .argAddr) ∧
      ((writeReg r v s).argData = s.argData ∨ r = .argData) := by
  cases r <;> simp [writeReg]

/-! The obligations. -/

/-- Settles O45: reset of the reset state is that state. -/
theorem resetSatisfiesTheInvariants : Obligations.ResetSatisfiesTheInvariants := stateInv_assertReset State.reset

/-- Settles O46: a case for each thing a step can do to the transaction. -/
theorem stepKeepsTheInvariants : Obligations.StepKeepsTheInvariants := fun _ _ inv stepped => inv.of_step stepped

/-- Settles O47: the invariants hold at reset whatever is pending, and every step keeps them. -/
theorem reachableStatesSatisfyTheInvariants : Obligations.ReachableStatesSatisfyTheInvariants := by
  intro xs n t run
  have start : StateInv { State.reset with inputs := xs } :=
    (stateInv_assertReset State.reset).of_sameTxn (.setInputs State.reset xs)
  have inv : StateInv t := runSteps_invariant (fun _ _ => StateInv.of_step) start run
  exact ⟨Nat.le_of_lt_succ t.rxCnt.isLt, txnState_code_le t.state, errCode_code_mem inv.err_not_valueError, inv⟩

/-- Settles O52: a host write changes at most the register it writes, and of the instructions a request frame alone
changes any. -/
theorem onlyTheHostWritesArguments : Obligations.OnlyTheHostWritesArguments := by
  intro s t x rest pending stepped
  rw [step_cons pending] at stepped
  obtain ⟨i, rfl, run⟩ | rfl | ⟨v, rfl⟩ | ⟨r, v, rfl, rfl⟩ | ⟨rfl, -⟩ := performInput_next_cases stepped
  · obtain same | frame := sameArguments_of_exec run
    · exact ⟨.inl same.argId, .inl same.argAddr, .inl same.argData⟩
    · exact ⟨.inr (.inr (.inr frame)), .inr (.inr (.inr frame)), .inr (.inr (.inr frame))⟩
  · exact ⟨.inl rfl, .inl rfl, .inl rfl⟩
  · exact ⟨.inl rfl, .inl rfl, .inl rfl⟩
  · obtain ⟨argId, argAddr, argData⟩ := writeReg_arguments r v { s with inputs := rest }
    refine ⟨argId.imp_right fun h => .inl ⟨v, ?_⟩, argAddr.imp_right fun h => .inl ⟨v, ?_⟩,
      argData.imp_right fun h => .inl ⟨v, ?_⟩⟩ <;> rw [h]
  · exact ⟨.inr (.inr (.inl rfl)), .inr (.inr (.inl rfl)), .inr (.inr (.inl rfl))⟩

end Sys2Proof.Machine
end

section
/-!
PROOFS. Whole attempts and transactions (42_transaction.md, 60_exceptions.md sections 2 and 7): the bytes a transport
delivers, how an attempt ends, late events, and the host's read and write transactions.
-/

namespace Sys2Proof.Machine

/-! The bytes a transport delivers. -/

/-- `f` with the bytes stored one after the other from index `n` on; a byte beyond the tenth is dropped. -/
def storeBytes (f : Frame) : Nat → List Byte → Frame
  | _, [] => f
  | n, b :: bs => storeBytes (if room : n < 10 then f.set n b room else f) (n + 1) bs

/-- `s` with this RX and this RXCNT. -/
def State.setRx (s : State) (rx : Frame) (n : Fin 11) : State := { s with rx := rx, rxCnt := n }

/-- Received bytes are stored from RXCNT on, as long as there is room for them (42_transaction.md R92). -/
theorem foldl_receiveByte_of_room {s : State} {bs : List Byte} {n : Fin 11} (awaiting : s.state = .awaitingResponse)
    (count : n.val = s.rxCnt.val + bs.length) :
    bs.foldl receiveByte s = s.setRx (storeBytes s.rx s.rxCnt.val bs) n := by
  induction bs generalizing s with
  | nil =>
    obtain rfl : n = s.rxCnt := Fin.ext count
    rfl
  | cons b bs ih =>
    rw [List.length_cons] at count
    have room : s.rxCnt.val < 10 := by have := n.isLt; omega
    rw [List.foldl_cons, receiveByte_of_room awaiting room, storeBytes, dif_pos room]
    exact ih awaiting (count.trans (Nat.add_right_comm _ _ 1))

section
variable {f : Frame} {n : Nat} {bs : List Byte} {i : Nat} (hi : i < 10)

theorem storeBytes_getElem_before (before : i < n) : (storeBytes f n bs)[i] = f[i] := by
  induction bs generalizing f n with
  | nil => rfl
  | cons b bs ih =>
    rw [storeBytes, ih (Nat.lt_succ_of_lt before)]
    split
    · exact Vector.getElem_set_ne _ _ before.ne'
    · rfl

theorem storeBytes_getElem_beyond (beyond : n + bs.length ≤ i) : (storeBytes f n bs)[i] = f[i] := by
  induction bs generalizing f n with
  | nil => rfl
  | cons b bs ih =>
    rw [List.length_cons] at beyond
    rw [storeBytes, ih (by omega)]
    split
    · exact Vector.getElem_set_ne _ _ (by omega)
    · rfl

theorem storeBytes_getElem_stored {j : Nat} (hj : j < bs.length) (place : i = n + j) :
    (storeBytes f n bs)[i] = bs[j] := by
  induction bs generalizing f n j with
  | nil => exact absurd hj (Nat.not_lt_zero j)
  | cons b bs ih =>
    rw [storeBytes]
    cases j with
    | zero =>
      obtain rfl : i = n := place
      rw [storeBytes_getElem_before hi (Nat.lt_succ_self i), dif_pos hi]
      exact Vector.getElem_set_self hi
    | succ j => exact ih (Nat.lt_of_succ_lt_succ hj) (by omega)

end

/-- Ten bytes stored from index 0 on are the frame. -/
theorem storeBytes_toList (f g : Frame) : storeBytes f 0 g.toList = g := by
  ext i hi
  have inside : i < g.toList.length := by rwa [Vector.length_toList]
  rw [storeBytes_getElem_stored hi inside (Nat.zero_add i).symm, Vector.getElem_toList]

/-- The first bytes of a frame they were stored in are the bytes. -/
theorem take_storeBytes {f : Frame} {bs : List Byte} (fits : bs.length ≤ 10) :
    (storeBytes f 0 bs).toList.take bs.length = bs := by
  refine List.ext_getElem (by simp [fits]) fun i _ hi => ?_
  rw [List.getElem_take, Vector.getElem_toList,
    storeBytes_getElem_stored (hi.trans_le fits) hi (Nat.zero_add i).symm]

/-- An attempt that starts with RXCNT 0 holds the bytes from index 0 on. -/
theorem foldl_receiveByte_of_start {s : State} {bs : List Byte} (awaiting : s.state = .awaitingResponse)
    (start : s.rxCnt.val = 0) (fits : bs.length ≤ 10) :
    bs.foldl receiveByte s = s.setRx (storeBytes s.rx 0 bs) ⟨bs.length, Nat.lt_succ_of_le fits⟩ := by
  have count : bs.length = s.rxCnt.val + bs.length := by rw [start, Nat.zero_add]
  rw [foldl_receiveByte_of_room (n := ⟨bs.length, Nat.lt_succ_of_le fits⟩) awaiting count, start]

/-- An attempt that starts with RXCNT 0 and receives ten bytes holds their frame. -/
theorem foldl_receiveByte_of_frame {s : State} (awaiting : s.state = .awaitingResponse) (start : s.rxCnt.val = 0)
    (f : Frame) : f.toList.foldl receiveByte s = s.setRx f 10 := by
  have count : (10 : Fin 11).val = s.rxCnt.val + f.toList.length := by rw [start, Vector.length_toList]; rfl
  rw [foldl_receiveByte_of_room awaiting count, start, storeBytes_toList]

/-! Runs of an attempt. -/

theorem receiveByte_setInputs (s : State) (b : Byte) (xs : List Input) :
    receiveByte (s.setInputs xs) b = (receiveByte s b).setInputs xs := by
  obtain ⟨awaiting, room, stored⟩ | ⟨awaiting, full, dropped⟩ | ⟨notAwaiting, stray⟩ := receiveByte_cases s b
  · rw [stored, receiveByte_of_room (s := s.setInputs xs) awaiting room]
    rfl
  · rw [dropped, receiveByte_of_full (s := s.setInputs xs) awaiting full]
    rfl
  · rw [stray, receiveByte_of_not_awaiting (s := s.setInputs xs) notAwaiting]
    rfl

theorem foldl_receiveByte_setInputs (s : State) (bs : List Byte) (xs : List Input) :
    bs.foldl receiveByte (s.setInputs xs) = (bs.foldl receiveByte s).setInputs xs := by
  induction bs generalizing s with
  | nil => rfl
  | cons b bs ih => rw [List.foldl_cons, receiveByte_setInputs, ih, List.foldl_cons]

theorem performInput_rxByte (b : Byte) (s : State) : performInput (.rxByte b) s = .next (receiveByte s b) :=
  performInput_hostCommand (.rxByte b) s

theorem performInput_rxEnd (k : RxEndKind) (s : State) : performInput (.rxEnd k) s = .next (endRead k s) :=
  performInput_hostCommand (.rxEnd k) s

theorem performInput_xportErr (s : State) : performInput .xportErr s = .next (transportException s) :=
  performInput_hostCommand .xportErr s

/-- A run over the bytes of an attempt and the event that ends it. -/
theorem runSteps_attempt {ends : Input} {f : State → State} (performs : ∀ u, performInput ends u = .next (f u))
    {s : State} {bs : List Byte} {rest : List Input} (pending : s.inputs = bs.map Input.rxByte ++ ends :: rest) :
    runSteps (bs.length + 1) s = .next (f (bs.foldl receiveByte (s.setInputs rest))) := by
  rw [runSteps_add (runSteps_map performInput_rxByte receiveByte_setInputs pending), foldl_receiveByte_setInputs,
    runSteps_cons rfl (performs _), setInputs_setInputs, runSteps_zero, foldl_receiveByte_setInputs]

/-- The inputs of a dutiful attempt are its bytes and its RX_END. -/
theorem dutifulAttempt_append (bs : List Byte) (k : RxEndKind) (rest : List Input) :
    dutifulAttempt bs k ++ rest = bs.map Input.rxByte ++ .rxEnd k :: rest := by
  rw [dutifulAttempt, List.append_assoc, List.singleton_append]

/-- A run over a dutiful attempt. -/
theorem runSteps_dutifulAttempt {s : State} {bs : List Byte} {k : RxEndKind} {rest : List Input}
    (pending : s.inputs = dutifulAttempt bs k ++ rest) :
    runSteps (bs.length + 1) s = .next (endRead k (bs.foldl receiveByte (s.setInputs rest))) := by
  rw [dutifulAttempt_append] at pending
  exact runSteps_attempt (performInput_rxEnd k) pending

/-- The state of an attempt that started in `s` with RXCNT 0 and has received `bs`. -/
def State.withResponse (s : State) (bs : List Byte) (fits : bs.length ≤ 10) : State :=
  s.setRx (storeBytes s.rx 0 bs) ⟨bs.length, Nat.lt_succ_of_le fits⟩

/-- A run over an attempt that starts with RXCNT 0. -/
theorem runSteps_attempt_of_start {ends : Input} {f : State → State}
    (performs : ∀ u, performInput ends u = .next (f u)) {s : State} {bs : List Byte} {rest : List Input}
    (awaiting : s.state = .awaitingResponse) (start : s.rxCnt.val = 0) (fits : bs.length ≤ 10)
    (pending : s.inputs = bs.map Input.rxByte ++ ends :: rest) :
    runSteps (bs.length + 1) s = .next (f ((s.setInputs rest).withResponse bs fits)) := by
  rw [runSteps_attempt performs pending, foldl_receiveByte_of_start (s := s.setInputs rest) awaiting start fits,
    State.withResponse]

/-! How an attempt ends. -/

/-- The classification of both kinds as one condition (42_transaction.md R95, R96). -/
theorem classify_eq_ite (q : ReqKind) (k : RxEndKind) (n : Nat) :
    classify q k n =
      if k = .timeout ∨ n = 0 then .timeout else if q = .read ∧ n < 10 then .indexError else .success := by
  cases q with
  | read => simp [classify, classifyRead]
  | write => simp [classify, classifyWrite]

theorem settleOutcome_ended (e : ErrCode) (s : State) :
    ((settleOutcome e s).state = .decoded ∨ (settleOutcome e s).state = .errored) ∧
      ((settleOutcome e s).state = .errored ↔ (settleOutcome e s).err ≠ .success) := by
  rw [settleOutcome_state, settleOutcome_err]
  split <;> simp [*]

/-! The frame of a response. -/

/-- The payload of a frame word's bytes is its payload field (30_encoding.md R60). -/
theorem framePayload_frameBytes (f : FrameWord) : framePayload (frameBytes f) = f.extractLsb' 16 32 := by
  have bytes := word4_be32 (f.extractLsb' 16 32)
  rwa [extract_extract _ (by decide), extract_extract _ (by decide), extract_extract _ (by decide),
    extract_extract _ (by decide)] at bytes

/-- The bytes RESPONSE delivers are those of its frame word. -/
theorem responseBytes_eq_frameBytes (header payload : Word) (crc : Half) :
    responseBytes header payload crc = (frameBytes (header ++ payload ++ crc)).toList := by
  obtain ⟨hheader, hpayload, hcrc⟩ := responseWord_fields header payload crc
  rw [frameBytes_toList_response, hheader, hpayload, hcrc]

/-- Bytes received outside AwaitingResponse, and the end of the attempt there, are one stray event. -/
theorem endRead_foldl_of_not_awaiting {k : RxEndKind} {s : State} (notAwaiting : s.state ≠ .awaitingResponse)
    (bs : List Byte) : endRead k (bs.foldl receiveByte s) = raiseStray s := by
  induction bs generalizing s with
  | nil => exact endRead_of_not_awaiting notAwaiting
  | cons b bs ih =>
    rw [List.foldl_cons, receiveByte_of_not_awaiting notAwaiting, ih (s := raiseStray s) notAwaiting]
    rfl

/-! Late events. -/

/-- The events a transport may raise (60_exceptions.md R110). -/
def Input.IsEvent (x : Input) : Prop := (∃ b, x = .rxByte b) ∨ (∃ k, x = .rxEnd k) ∨ x = .xportErr

theorem performInput_late {x : Input} {s : State} (event : x.IsEvent) (notSent : s.state ≠ .sent)
    (notAwaiting : s.state ≠ .awaitingResponse) : performInput x s = .next (raiseStray s) := by
  obtain ⟨b, rfl⟩ | ⟨k, rfl⟩ | rfl := event
  · rw [performInput_rxByte, receiveByte_of_not_awaiting notAwaiting]
  · rw [performInput_rxEnd, endRead_of_not_awaiting notAwaiting]
  · rw [performInput_xportErr, transportException_of_not_inFlight notSent notAwaiting]

/-- A run over events outside a transaction in flight sets STRAY if there is one. -/
theorem runSteps_late {s : State} {es rest : List Input} (notSent : s.state ≠ .sent)
    (notAwaiting : s.state ≠ .awaitingResponse) (events : ∀ e ∈ es, e.IsEvent) (pending : s.inputs = es ++ rest) :
    runSteps es.length s = .next { s with inputs := rest, stray := s.stray || !es.isEmpty } := by
  induction es generalizing s with
  | nil =>
    obtain rfl : s.inputs = rest := pending
    simp
  | cons e es ih =>
    obtain ⟨event, others⟩ := List.forall_mem_cons.1 events
    rw [List.cons_append] at pending
    rw [List.length_cons, runSteps_cons pending (performInput_late event notSent notAwaiting),
      ih (s := raiseStray (s.setInputs (es ++ rest))) notSent notAwaiting others rfl]
    simp [raiseStray, State.setInputs]

/-! The host's transactions. -/

/-- The state in which the response to a request of a kind is awaited, the frame and the read request handed over. -/
def State.requestOpened (q : ReqKind) (s : State) : State :=
  { s with
    tx := buildFrame s.argId q.functionCode s.argAddr (requestPayload q s)
    kind := q
    rx := zeroFrame
    rxCnt := 0
    crcOk := false
    err := .success
    value := 0#32
    valueValid := false
    state := .awaitingResponse
    toTransport := s.toTransport ++
      [.txWrite (buildFrame s.argId q.functionCode s.argAddr (requestPayload q s)), .rxRequest 10] }

/-- The three commands of a transaction, in a state that may build a frame (30_encoding.md R66). -/
theorem runSteps_openRequest {q : ReqKind} {s : State} {rest : List Input} (notSent : s.state ≠ .sent)
    (notAwaiting : s.state ≠ .awaitingResponse)
    (pending : s.inputs = hostCommand q.command :: hostCommand .send :: hostCommand .recv :: rest) :
    runSteps 3 s = .next ((s.setInputs rest).requestOpened q) := by
  have build := buildRequest_of_legal (q := q)
    (s := s.setInputs (hostCommand .send :: hostCommand .recv :: rest)) notSent notAwaiting
  rw [runSteps_cons pending (performInput_command _ q), build,
    runSteps_cons rfl (performInput_hostCommand .send _), sendFrame_of_frameBuilt rfl,
    runSteps_cons rfl (performInput_hostCommand .recv _), openRead_of_sent rfl, runSteps_zero]
  simp only [State.requestOpened, emit, encCommon, State.setInputs, List.append_assoc]
  rfl

/-- The host's read transaction up to its POLL (30_encoding.md R66(b)). -/
theorem runSteps_readTxn {s : State} {id : Byte} {addr : Half} {rest : List Input} (notSent : s.state ≠ .sent)
    (notAwaiting : s.state ≠ .awaitingResponse) (pending : s.inputs = readTxnMacro id addr ++ rest) :
    runSteps 5 s = .next (State.requestOpened .read { s with argId := id, argAddr := addr, inputs := rest }) := by
  rw [runSteps_cons pending (performInput_WR_argId _ id), runSteps_cons rfl (performInput_WR_argAddr _ addr)]
  exact runSteps_openRequest notSent notAwaiting rfl

/-- The host's write transaction up to its POLL (30_encoding.md R66(c)). -/
theorem runSteps_writeTxn {s : State} {id : Byte} {addr : Half} {data : Word} {rest : List Input}
    (notSent : s.state ≠ .sent) (notAwaiting : s.state ≠ .awaitingResponse)
    (pending : s.inputs = writeTxnMacro id addr data ++ rest) :
    runSteps 6 s =
      .next (State.requestOpened .write { s with argId := id, argAddr := addr, argData := data, inputs := rest }) := by
  rw [runSteps_cons pending (performInput_WR_argId _ id), runSteps_cons rfl (performInput_WR_argAddr _ addr),
    runSteps_cons rfl (performInput_WR_argData _ data)]
  exact runSteps_openRequest notSent notAwaiting rfl

/-- A read transaction's attempt, answered with ten bytes. -/
theorem runSteps_answeredRead {s : State} {resp : Frame} {rest : List Input} (awaiting : s.state = .awaitingResponse)
    (start : s.rxCnt.val = 0) (read : s.kind = .read) (pending : s.inputs = dutifulAttempt resp.toList .data ++ rest) :
    runSteps 11 s = .next { s with
      inputs := rest, rx := resp, rxCnt := 10, crcOk := frameWellFormed resp, state := .decoded, err := .success
      value := framePayload resp, valueValid := true } := by
  have run := runSteps_dutifulAttempt pending
  rw [Vector.length_toList, foldl_receiveByte_of_frame (s := s.setInputs rest) awaiting start,
    endRead_of_full_read (s := (s.setInputs rest).setRx resp 10) awaiting read rfl] at run
  exact run

/-- A write transaction's attempt, answered with 1 to 10 bytes. -/
theorem runSteps_answeredWrite {s : State} {bs : List Byte} {rest : List Input} (awaiting : s.state = .awaitingResponse)
    (start : s.rxCnt.val = 0) (write : s.kind = .write) (someByte : 0 < bs.length) (fits : bs.length ≤ 10)
    (pending : s.inputs = dutifulAttempt bs .data ++ rest) :
    runSteps (bs.length + 1) s = .next { s with
      inputs := rest, rx := storeBytes s.rx 0 bs, rxCnt := ⟨bs.length, Nat.lt_succ_of_le fits⟩
      crcOk := crcMatch bs.length (storeBytes s.rx 0 bs), state := .decoded, err := .success } := by
  rw [dutifulAttempt_append] at pending
  rw [runSteps_attempt_of_start (performInput_rxEnd .data) awaiting start fits pending,
    endRead_of_answered_write (s := (s.setInputs rest).withResponse bs fits) awaiting write someByte]
  rfl

/-- POLL ends exactly in Decoded and in Errored. -/
theorem pollEnds_iff (s : State) : pollEnds (statusWord s) = true ↔ s.state = .decoded ∨ s.state = .errored := by
  rw [pollEnds, statusWord_state]
  cases s.state <;> decide

/-! The obligations. -/

/-- Settles O41: each payload is a literal, which the signed reading evaluates. -/
theorem signedReadingOfCornerPayloads : Obligations.SignedReadingOfCornerPayloads := by
  unfold Obligations.SignedReadingOfCornerPayloads
  decide

/-- Settles O43: the ten bytes fill RX, and the end of the attempt is that of a read, of a write, or stray. -/
theorem responseFrameIsReceivedAndDecoded : Obligations.ResponseFrameIsReceivedAndDecoded := by
  refine ⟨fun s header payload crc awaiting start read => ?read, fun s header payload crc awaiting start write => ?write,
    fun s header payload crc notAwaiting => ?stray⟩
  case read =>
    obtain ⟨-, hpayload, -⟩ := responseWord_fields header payload crc
    rw [exec_response, responseBytes_eq_frameBytes, foldl_receiveByte_of_frame awaiting start,
      endRead_of_full_read (s := s.setRx _ 10) awaiting read rfl, State.setRx, framePayload_frameBytes, hpayload]
  case write =>
    rw [exec_response, responseBytes_eq_frameBytes, foldl_receiveByte_of_frame awaiting start,
      endRead_of_answered_write (s := s.setRx _ 10) awaiting write (Nat.succ_pos 9)]
    rfl
  case stray => rw [exec_response, endRead_foldl_of_not_awaiting notAwaiting, raiseStray]

/-- Settles O44: both sides end the attempt after the same ten bytes. -/
theorem responseFrameStepIsItsEvents : Obligations.ResponseFrameStepIsItsEvents := by
  intro s f rest
  have events := runSteps_dutifulAttempt
    (s := { s with inputs := dutifulAttempt (frameBytes f).toList .data ++ rest }) rfl
  rw [Vector.length_toList] at events
  rw [events, step_cons rfl, performInput_of_encoded rfl, performEncoded_ok rfl, decodeResponse, exec_response,
    ← frameBytes_toList_response]
  rfl

/-- Settles O54: a late event sets STRAY, and one that follows finds it set. -/
theorem lateTransportEventsAreStray : Obligations.LateTransportEventsAreStray := by
  intro s es rest notSent notAwaiting nonempty events pending
  rw [runSteps_late notSent notAwaiting events pending]
  simp [nonempty]

/-- Settles O55: the bytes are stored from index 0 on; RX_END then settles their classification, and XPORT_ERR enters
Errored. -/
theorem dutifulTransportEndsTheAttempt : Obligations.DutifulTransportEndsTheAttempt := by
  refine ⟨fun s bs k rest awaiting start fits pending => ?ended, fun s bs rest awaiting start fits pending => ?failed⟩
  case ended =>
    rw [dutifulAttempt_append] at pending
    have run := runSteps_attempt_of_start (performInput_rxEnd k) awaiting start fits pending
    rw [endRead_of_awaiting (s := (s.setInputs rest).withResponse bs fits) awaiting] at run
    obtain ⟨terminal, errored⟩ := settleOutcome_ended _ _
    refine ⟨_, run, settleOutcome_inputs .., congrArg Fin.val (settleOutcome_rxCnt ..), fun i hi => ?_, fun i hi => ?_,
      settleOutcome_tx .., settleOutcome_crc .., ?_, terminal, errored⟩
    · rw [settleOutcome_rx]
      exact storeBytes_getElem_stored i.isLt hi (Nat.zero_add _).symm
    · rw [settleOutcome_rx]
      exact storeBytes_getElem_beyond i.isLt (by rwa [Nat.zero_add])
    · rw [settleOutcome_err, classify_eq_ite]
      rfl
  case failed =>
    have run := runSteps_attempt_of_start performInput_xportErr awaiting start fits pending
    rw [transportException_of_inFlight (s := (s.setInputs rest).withResponse bs fits) (.inr awaiting)] at run
    exact ⟨_, run, rfl, fun i hi => storeBytes_getElem_stored i.isLt hi (Nat.zero_add _).symm,
      fun i hi => storeBytes_getElem_beyond i.isLt (by rwa [Nat.zero_add]), rfl⟩

/-- Settles O56: the read transaction opens the request, and its answer of ten bytes is decoded. -/
theorem readTransactionReturnsThePayload : Obligations.ReadTransactionReturnsThePayload := by
  intro s id addr resp rest notSent notAwaiting pending
  have run := (runSteps_add (n := 11) (runSteps_readTxn notSent notAwaiting pending)).trans
    (runSteps_answeredRead rfl rfl rfl rfl)
  refine ⟨_, run, rfl, ?_, (pollEnds_iff _).2 (.inl rfl), rfl, rfl, rfl, rfl⟩
  have raw : resp.toList.take 10 = resp.toList := List.take_of_length_le (by simp)
  exact congrArg (fun bytes => (some (s32 (framePayload resp)), ErrCode.success, bytes)) raw

/-- Settles O57: the write transaction opens the request, and its answer of 1 to 10 bytes ends it. -/
theorem writeTransactionReturnsTheFrameSent : Obligations.WriteTransactionReturnsTheFrameSent := by
  intro s id addr data bs rest notSent notAwaiting someByte fits pending
  have run := (runSteps_add (n := bs.length + 1) (runSteps_writeTxn notSent notAwaiting pending)).trans
    (runSteps_answeredWrite rfl rfl rfl someByte fits rfl)
  have steps : 6 + (bs.length + 1) = bs.length + 7 := by omega
  rw [steps] at run
  exact ⟨_, run, rfl, rfl, take_storeBytes fits, (pollEnds_iff _).2 (.inl rfl), rfl, rfl, rfl⟩

end Sys2Proof.Machine
end

section
/-!
PROOFS. The host's address conversion (60_exceptions.md R120): the value of a text of hexadecimal digits, and the texts
that are refused.
-/

namespace Sys2Proof.Machine

/-- The first digit is the most significant of those still to read. -/
theorem hexValue_cons_of_spelling {d : Fin 16} {c : Char} (spelling : c ∈ hexSpellings d) (acc : Nat) (cs : List Char) :
    hexValue acc (c :: cs) = hexValue (16 * acc + d.val) cs := by
  rw [hexValue, hexDigit_of_spelling d c spelling, Option.bind_some]

/-- The value of four digits, first digit most significant. -/
theorem hexValue_four {d₃ d₂ d₁ d₀ : Fin 16} {c₃ c₂ c₁ c₀ : Char} (h₃ : c₃ ∈ hexSpellings d₃)
    (h₂ : c₂ ∈ hexSpellings d₂) (h₁ : c₁ ∈ hexSpellings d₁) (h₀ : c₀ ∈ hexSpellings d₀) :
    hexValue 0 [c₃, c₂, c₁, c₀] = some (4096 * d₃.val + 256 * d₂.val + 16 * d₁.val + d₀.val) := by
  rw [hexValue_cons_of_spelling h₃, hexValue_cons_of_spelling h₂, hexValue_cons_of_spelling h₁,
    hexValue_cons_of_spelling h₀, hexValue]
  congr 1
  omega

/-- A zero before a text leaves its value. -/
theorem hexValue_zero_cons (cs : List Char) : hexValue 0 ('0' :: cs) = hexValue 0 cs :=
  hexValue_cons_of_spelling (d := 0) (List.mem_singleton_self '0') 0 cs

/-- A character that spells no digit reads as none. -/
theorem hexDigit_eq_none {c : Char} (noDigit : ∀ d : Fin 16, c ∉ hexSpellings d) : hexDigit c = none := by
  cases read : hexDigit c with
  | none => rfl
  | some n =>
    obtain ⟨d, spelling⟩ := spelling_of_hexDigit read
    exact absurd spelling (noDigit d)

theorem hostAddress_of_value {cs : List Char} {n : Nat} (nonempty : 1 ≤ cs.length) (short : cs.length ≤ 4)
    (value : hexValue 0 cs = some n) : hostAddress cs = .ok (BitVec.ofNat 16 n) := by
  rw [hostAddress, if_pos ⟨nonempty, short⟩, value]

theorem hostAddress_of_no_value {cs : List Char} (noValue : hexValue 0 cs = none) :
    hostAddress cs = .error .valueError := by
  rw [hostAddress, noValue]
  exact ite_self _

theorem hostAddress_of_bad_length {cs : List Char} (bad : ¬(1 ≤ cs.length ∧ cs.length ≤ 4)) :
    hostAddress cs = .error .valueError :=
  if_neg bad

/-- Padding a text of one to three characters with a zero changes nothing. -/
theorem hostAddress_zero_cons {cs : List Char} (nonempty : 1 ≤ cs.length) (short : cs.length ≤ 3) :
    hostAddress ('0' :: cs) = hostAddress cs := by
  have padded : 1 ≤ ('0' :: cs).length ∧ ('0' :: cs).length ≤ 4 := ⟨by simp, Nat.succ_le_succ short⟩
  rw [hostAddress, hostAddress, if_pos padded, if_pos ⟨nonempty, Nat.le_succ_of_le short⟩, hexValue_zero_cons]

/-- Settles O59: the value of four digits, the padding with a zero, and the texts with no value or of a bad length. -/
theorem hostAddressConversion : Obligations.HostAddressConversion := by
  refine ⟨fun d₃ d₂ d₁ d₀ c₃ h₃ c₂ h₂ c₁ h₁ c₀ h₀ => ?value, fun cs nonempty short => hostAddress_zero_cons nonempty short,
    fun cs bad => ?refused, rfl, rfl⟩
  case value => exact hostAddress_of_value (by simp) (by simp) (hexValue_four h₃ h₂ h₁ h₀)
  case refused =>
    obtain rfl | long | ⟨c, member, noDigit⟩ := bad
    · exact hostAddress_of_bad_length (by simp)
    · exact hostAddress_of_bad_length (fun fits => absurd fits.2 (Nat.not_le_of_lt long))
    · exact hostAddress_of_no_value (hexValue_eq_none member (hexDigit_eq_none noDigit) 0)

end Sys2Proof.Machine
end
